-- ==== Sys2Proof/Word.lean ====
section
/-! DEFINITION. The widths of the machine's values: bytes, 16-bit raw words, 32-bit port words, 64-bit patterns.

Bit 0 is the least significant bit of every value (00_scope.md R9). -/

namespace Sys2Proof

/-- An 8-bit value (R9): a received byte, a frame byte, a checksum, an opcode. -/
abbrev Byte := BitVec 8

/-- A 16-bit raw word (R7: raw word width 16 bits). -/
abbrev Half := BitVec 16

/-- A 32-bit value of the register port (R7: register-port data width 32 bits). -/
abbrev Word := BitVec 32

/-- A 64-bit pattern: a binary64 value (R20, element TF64). -/
abbrev Double := BitVec 64

end Sys2Proof
end

