-- ==== Sys2Proof/Syntax/Port.lean ====
section
/-! DEFINITION. The register port: the sixteen registers of the window, host accesses, program triples, what the
outside world can do to the core, and what the port answers. -/

namespace Sys2Proof

/-- The sixteen 32-bit registers of the window (10_state.md R24), the three reserved offsets among them (R42). -/
inductive Reg where
  | id | cmd | status | devAddr
  | rxByte | rxBuf | crc | frame0
  | frame1 | tempCc | tempF64Lo | tempF64Hi
  | raw | reserved34 | reserved38 | reserved3C
  deriving DecidableEq, Repr

/-- One host access to the bus (43_control.md R167, `Access(dir, addr, n, be, v)`): `addr` is the host byte address,
`n` the size in bytes, `be` the byte enables of a write (bit k for byte k of the 32-bit port; log 12), `v` the written
word. A read has no byte enables and no data. -/
inductive Access where
  | read (addr n : Nat)
  | write (addr n : Nat) (be : BitVec 4) (v : Word)
  deriving DecidableEq, Repr

/-- The host byte address of an access. -/
def Access.addr : Access → Nat
  | .read addr _ => addr
  | .write addr _ _ _ => addr

/-- One host operation of a program, the triple `(dir, off, data)` of 30_encoding.md R88: a read of an offset, or a
write of a word to an offset. -/
inductive Triple where
  | rd (off : BitVec 6)
  | wr (off : BitVec 6) (data : Word)
  deriving DecidableEq, Repr

/-- What the outside world does to the core: a register access (10_state.md R23), or a change of the reset input
(70_reset_and_hazards.md R200). -/
inductive HostEvent where
  | access (a : Access)
  | assertReset
  | releaseReset
  deriving DecidableEq, Repr

/-- What the port answers to one access: a completed write (20_memory.md R68), the word a read returns (43_control.md
R165), or an error response (60_exceptions.md R186). -/
inductive Reply where
  | completed
  | data (v : Word)
  | busError (addr : Nat)
  deriving DecidableEq, Repr

end Sys2Proof
end

