-- ==== Sys2Proof/Syntax.lean ====
section
/-! DEFINITION. The instructions: one constructor per row of spec/opcode_table.json. -/

namespace Sys2Proof

/-- The host operations of the core (00_scope.md R2, 30_encoding.md R83, R84, R87): nine commands, the illegal command
word, and the three register operations. Operands are literal values (R82). -/
inductive Instr where
  /-- NOP (43_control.md R160). -/
  | nop
  /-- CRC.INIT (40_crc.md R108). -/
  | crcInit
  /-- CRC.FEED b (40_crc.md R109); `b` is ARG8. -/
  | crcFeed (b : Byte)
  /-- FRAME r (41_frame_check.md R127); `r` is ARG8. -/
  | frame (r : Byte)
  /-- CHECK r (41_frame_check.md R128); `r` is ARG8. -/
  | check (r : Byte)
  /-- READ r (41_frame_check.md R129); `r` is ARG8. -/
  | read (r : Byte)
  /-- CONVERT h (42_convert.md R146); `h` is ARG16. -/
  | convert (h : Half)
  /-- RX.CLEAR (43_control.md R161). -/
  | rxClear
  /-- SRST (43_control.md R162). -/
  | srst
  /-- ILLEGAL (43_control.md R166); `w` is the whole command word. -/
  | illegal (w : Word)
  /-- RXPUSH v (43_control.md R163); `v` is the whole written word. -/
  | rxPush (v : Word)
  /-- WR to a register that takes no write (43_control.md R164); `v` is the written word, ignored. -/
  | wr (reg : Reg) (v : Word)
  /-- RD (43_control.md R165). -/
  | rd (reg : Reg)
  deriving DecidableEq, Repr

end Sys2Proof
end

