-- ==== Sys2Proof/WellFormed.lean ====
section
/-! DEFINITION. The opcode map as match and mask (30_encoding.md R83), and which instruction terms a host access can
stand for. -/

namespace Sys2Proof

/-- One row of the opcode map (30_encoding.md R83). -/
structure OpRow where
  mnemonic : String
  pattern : Word
  mask : Word
  deriving DecidableEq, Repr

/-- The nine rows of 30_encoding.md R83, in its order. -/
def opcodeMap : List OpRow :=
  [ ⟨"NOP",      0x00000000#32, 0xFFFFFFFF#32⟩,
    ⟨"CRC.INIT", 0x00000001#32, 0xFFFFFFFF#32⟩,
    ⟨"CRC.FEED", 0x00000002#32, 0xFFFF00FF#32⟩,
    ⟨"FRAME",    0x00000003#32, 0xFFFF00FF#32⟩,
    ⟨"CHECK",    0x00000004#32, 0xFFFF00FF#32⟩,
    ⟨"READ",     0x00000005#32, 0xFFFF00FF#32⟩,
    ⟨"CONVERT",  0x00000006#32, 0x0000FFFF#32⟩,
    ⟨"RX.CLEAR", 0x00000007#32, 0xFFFFFFFF#32⟩,
    ⟨"SRST",     0x00000008#32, 0xFFFFFFFF#32⟩ ]

/-- `w` selects the row when `(w & mask) == match` (30_encoding.md R83). -/
def OpRow.selects (r : OpRow) (w : Word) : Bool := w &&& r.mask == r.pattern

/-- Some row of the opcode map matches `w`; a word that matches none is illegal (30_encoding.md R84). -/
def matchesSomeRow (w : Word) : Bool := opcodeMap.any fun r => r.selects w

/-- A term an access can stand for: an `illegal` holds a word that matches no row (30_encoding.md R84), and a `wr` goes
to a register other than CMD and RXBYTE (43_control.md R164). Every other operand is legal at every value. -/
def Instr.wellFormed : Instr → Bool
  | .nop => true
  | .crcInit => true
  | .crcFeed _ => true
  | .frame _ => true
  | .check _ => true
  | .read _ => true
  | .convert _ => true
  | .rxClear => true
  | .srst => true
  | .illegal w => !matchesSomeRow w
  | .rxPush _ => true
  | .wr reg _ => reg != .cmd && reg != .rxByte
  | .rd _ => true

end Sys2Proof
end

