-- ==== Sys2Proof/Decode.lean ====
section
/-! DEFINITION. The two-level decoder of host accesses (30_encoding.md R80), its inverse, and the numbering of
spec/opcode_table.json. -/

namespace Sys2Proof

/-! ### Fields of a command word (30_encoding.md R80, R82) -/

/-- OP, bits [7:0]. -/
def cmdOp (w : Word) : Byte := w.extractLsb' 0 8

/-- ARG8, bits [15:8], unsigned. -/
def cmdArg8 (w : Word) : Byte := w.extractLsb' 8 8

/-- ARG16, bits [31:16], unsigned. -/
def cmdArg16 (w : Word) : Half := w.extractLsb' 16 16

/-! ### Level 2: command words -/

/-- The predicate `legal` of 30_encoding.md R86: the opcode is one of the nine, and the fields its format does not use
are zero (R81). -/
def commandLegal (w : Word) : Bool :=
  (cmdOp w ∈ [0x00#8, 0x01#8, 0x07#8, 0x08#8] && cmdArg8 w == 0#8 && cmdArg16 w == 0#16)
    || (cmdOp w ∈ [0x02#8, 0x03#8, 0x04#8, 0x05#8] && cmdArg16 w == 0#16)
    || (cmdOp w == 0x06#8 && cmdArg8 w == 0#8)

/-- The whole level-2 decoder (30_encoding.md R86): total, an illegal word decodes to ILLEGAL (R84). -/
def decodeCommand (w : Word) : Instr :=
  if commandLegal w then
    match cmdOp w with
    | 0x00#8 => .nop
    | 0x01#8 => .crcInit
    | 0x02#8 => .crcFeed (cmdArg8 w)
    | 0x03#8 => .frame (cmdArg8 w)
    | 0x04#8 => .check (cmdArg8 w)
    | 0x05#8 => .read (cmdArg8 w)
    | 0x06#8 => .convert (cmdArg16 w)
    | 0x07#8 => .rxClear
    | 0x08#8 => .srst
    | _ => .illegal w
  else .illegal w

/-! ### Level 1: accesses -/

/-- The register at an offset of the window (10_state.md R24); no register starts at an offset that is not a multiple
of 4. -/
def Reg.atOffset : Nat → Option Reg
  | 0x00 => some .id
  | 0x04 => some .cmd
  | 0x08 => some .status
  | 0x0C => some .devAddr
  | 0x10 => some .rxByte
  | 0x14 => some .rxBuf
  | 0x18 => some .crc
  | 0x1C => some .frame0
  | 0x20 => some .frame1
  | 0x24 => some .tempCc
  | 0x28 => some .tempF64Lo
  | 0x2C => some .tempF64Hi
  | 0x30 => some .raw
  | 0x34 => some .reserved34
  | 0x38 => some .reserved38
  | 0x3C => some .reserved3C
  | _ => none

/-- The offset of a register in the window (10_state.md R24). -/
def Reg.offset : Reg → BitVec 6
  | .id => 0x00#6
  | .cmd => 0x04#6
  | .status => 0x08#6
  | .devAddr => 0x0C#6
  | .rxByte => 0x10#6
  | .rxBuf => 0x14#6
  | .crc => 0x18#6
  | .frame0 => 0x1C#6
  | .frame1 => 0x20#6
  | .tempCc => 0x24#6
  | .tempF64Lo => 0x28#6
  | .tempF64Hi => 0x2C#6
  | .raw => 0x30#6
  | .reserved34 => 0x34#6
  | .reserved38 => 0x38#6
  | .reserved3C => 0x3C#6

/-- The access is in the 64-byte window at `base` (20_memory.md R60): its first byte is (log 7). -/
def inWindow (base : Nat) (a : Access) : Bool := base ≤ a.addr && a.addr < base + 0x40

/-- A legal access (20_memory.md R61 to R63, 43_control.md R167): 4 bytes, aligned, and a write has all four byte
enables. -/
def legalAccess (base : Nat) : Access → Bool
  | .read addr n => n == 4 && (addr - base) % 4 == 0
  | .write addr n be _ => n == 4 && (addr - base) % 4 == 0 && be == 0xF#4

/-- What an access means: an instruction, a BusError (60_exceptions.md R186), or nothing of the core's, because it is
outside the window. -/
inductive Decoded where
  | instr (i : Instr)
  | busError (addr : Nat)
  | outside (addr : Nat)
  deriving DecidableEq, Repr

/-- A legal write of `v` to register `reg` (43_control.md R167): to CMD a command, to RXBYTE a pushed byte, to any other
register WR. -/
def decodeWrite (reg : Reg) (v : Word) : Instr :=
  match reg with
  | .cmd => decodeCommand v
  | .rxByte => .rxPush v
  | _ => .wr reg v

/-- The decoder of host accesses (43_control.md R167): width, alignment and byte enables are decided before anything
else (60_exceptions.md R188). -/
def decode (base : Nat) (a : Access) : Decoded :=
  if !inWindow base a then .outside a.addr
  else if !legalAccess base a then .busError a.addr
  else
    match Reg.atOffset (a.addr - base), a with
    | some reg, .read _ _ => .instr (.rd reg)
    | some reg, .write _ _ _ v => .instr (decodeWrite reg v)
    | none, a => .busError a.addr

/-! ### The encoder -/

/-- A command word from its fields (30_encoding.md R80). -/
def commandWord (op arg8 : Byte) (arg16 : Half) : Word :=
  (arg16.zeroExtend 32 <<< 16) ||| (arg8.zeroExtend 32 <<< 8) ||| op.zeroExtend 32

/-- The triple of an instruction (30_encoding.md R88, and the encodings of R89's table). -/
def Instr.triple : Instr → Triple
  | .nop => .wr Reg.cmd.offset (commandWord 0x00#8 0#8 0#16)
  | .crcInit => .wr Reg.cmd.offset (commandWord 0x01#8 0#8 0#16)
  | .crcFeed b => .wr Reg.cmd.offset (commandWord 0x02#8 b 0#16)
  | .frame r => .wr Reg.cmd.offset (commandWord 0x03#8 r 0#16)
  | .check r => .wr Reg.cmd.offset (commandWord 0x04#8 r 0#16)
  | .read r => .wr Reg.cmd.offset (commandWord 0x05#8 r 0#16)
  | .convert h => .wr Reg.cmd.offset (commandWord 0x06#8 0#8 h)
  | .rxClear => .wr Reg.cmd.offset (commandWord 0x07#8 0#8 0#16)
  | .srst => .wr Reg.cmd.offset (commandWord 0x08#8 0#8 0#16)
  | .illegal w => .wr Reg.cmd.offset w
  | .rxPush v => .wr Reg.rxByte.offset v
  | .wr reg v => .wr reg.offset v
  | .rd reg => .rd reg.offset

/-- The access a triple makes to a window at `base` (30_encoding.md R88, 20_memory.md R61): 32 bits, all byte
enables. -/
def Triple.access (base : Nat) : Triple → Access
  | .rd off => .read (base + off.toNat) 4
  | .wr off v => .write (base + off.toNat) 4 0xF#4 v

/-- The access that an instruction is, in a window at `base`. -/
def encode (base : Nat) (i : Instr) : Access := i.triple.access base

/-! ### The numbering of spec/opcode_table.json -/

/-- The triple that the opcode table's bits stand for. A row of 32 bits is a command word (a write to CMD). A row of
8 bits is matched on the window offset, bits [5:0]; the table gives the direction no bit, and the model takes bit 6 for
it, 0 a write and 1 a read; a write's data, above the table's bits, is 0. The row ILLEGAL fixes no bit and has the field
OP only: 8 bits with bit 7 set are the OP of a command word. DESIGN CHOICE, log 10. -/
def tableTriple (nbits w : Nat) : Option Triple :=
  if nbits ≤ 8 then
    if w < 0x40 then some (.wr (BitVec.ofNat 6 w) 0#32)
    else if w < 0x80 then some (.rd (BitVec.ofNat 6 w))
    else if w < 0x100 then some (.wr Reg.cmd.offset (BitVec.ofNat 32 w))
    else none
  else if w < 2 ^ 32 then some (.wr Reg.cmd.offset (BitVec.ofNat 32 w))
  else none

/-- The instruction the decoder reads from an instruction whose bits are `w`, numbered as spec/opcode_table.json
numbers them; none where the decoder refuses. The window's place does not matter; it is put at 0. -/
def decodeTableWord (nbits w : Nat) : Option Instr :=
  match (tableTriple nbits w).map (fun t => decode 0 (t.access 0)) with
  | some (.instr i) => some i
  | _ => none

end Sys2Proof
end

