-- ==== Sys2Proof/Machine/Binary64.lean ====
section
/-! DEFINITION. Binary64 values and the rounding `RNE64` (42_convert.md R142). The format and round to nearest, ties to
even, are IEEE 754's (00_scope.md R17, 93_implementation_defined.md). PRESUMED, log 13. -/

namespace Sys2Proof.Machine

/-- An exact number `num * 2 ^ exp`. -/
structure Exact where
  num : Int
  exp : Int
  deriving DecidableEq, Repr

/-- The exact product. -/
def Exact.mul (a b : Exact) : Exact := ⟨a.num * b.num, a.exp + b.exp⟩

/-- The exact difference. -/
def Exact.sub (a b : Exact) : Exact :=
  let e := min a.exp b.exp
  ⟨a.num * 2 ^ (a.exp - e).toNat - b.num * 2 ^ (b.exp - e).toNat, e⟩

/-- The exact value of a finite binary64 pattern: the sign, the 11-bit exponent field and the 52-bit fraction. Infinities
and NaNs have no value here; none arises (42_convert.md R144 (a)). -/
def exactOfBits (b : Double) : Exact :=
  let fraction := (b.extractLsb' 0 52).toNat
  let field := (b.extractLsb' 52 11).toNat
  let magnitude : Nat := if field = 0 then fraction else fraction + 2 ^ 52
  ⟨if b.msb then -(magnitude : Int) else (magnitude : Int), (max field 1 : Nat) - 1075⟩

/-- `m / 2 ^ d` rounded to the nearest natural number, ties to even. -/
def roundHalfEven (m d : Nat) : Nat :=
  let k := m / 2 ^ d
  let twice := 2 * (m % 2 ^ d)
  if twice < 2 ^ d then k
  else if twice = 2 ^ d ∧ k % 2 = 0 then k
  else k + 1

/-- The exponent of the last place of the binary64 values around `m * 2 ^ e`: 53 significant bits, but never below the
subnormal spacing `2 ^ -1074`. -/
def lastPlace (m : Nat) (e : Int) : Int := max (e + Nat.log2 m - 52) (-1074)

/-- `RNE64(q)` (42_convert.md R142): the pattern of the binary64 value nearest to `q`, ties to the even significand. A
magnitude too large for the format gives infinity, and 0 gives +0.0. -/
def rne64 (q : Exact) : Double :=
  let m := q.num.natAbs
  if m = 0 then 0#64
  else
    let ulp := lastPlace m q.exp
    let n := roundHalfEven (m * 2 ^ (q.exp - ulp).toNat) (ulp - q.exp).toNat
    let magnitude := min ((ulp + 1074).toNat * 2 ^ 52 + n) (0x7FF * 2 ^ 52)
    BitVec.ofBool (q.num < 0) ++ BitVec.ofNat 63 magnitude

/-- `C_SCALE`, the binary64 value nearest to 0.02 (42_convert.md R143). -/
def cScale : Double := 0x3F947AE147AE147B#64

/-- `C_OFFSET`, the binary64 value nearest to 273.15 (42_convert.md R143). -/
def cOffset : Double := 0x4071126666666666#64

/-- The rounded product `p` of 42_convert.md R142. -/
def convProduct (raw : Half) : Double := rne64 (Exact.mul ⟨raw.toNat, 0⟩ (exactOfBits cScale))

/-- `conv_f64(raw)` (42_convert.md R142): the product rounded once, then the difference rounded once. -/
def convF64 (raw : Half) : Double := rne64 (Exact.sub (exactOfBits (convProduct raw)) (exactOfBits cOffset))

/-- `conv_cc(raw)` (42_convert.md R140): the exact temperature in centi-Celsius. -/
def convCc (raw : Half) : Int := 2 * (raw.toNat : Int) - 27315

end Sys2Proof.Machine
end

