-- ==== Sys2Proof/Config.lean ====
section
/-! DEFINITION. The implementation parameters of 00_scope.md R7. They are fixed for a core once it is instantiated, and
they are arguments of the model: the state carries them (log 1), so a statement about every state holds for every legal
instantiation. -/

namespace Sys2Proof

/-- `P_CRC_IMPL` (00_scope.md R7): a bit-serial or a table CRC engine. -/
inductive CrcImpl where
  | serial
  | table
  deriving DecidableEq, Repr

/-- The parameters of one core (00_scope.md R7). Only legal values can be written: `devAddr` has 7 bits (R8), and the
window's address is 64 times `baseBlock`, so it is aligned to 64 bytes. -/
structure Params where
  /-- `P_DEVADDR`, the sensor's 7-bit bus address. -/
  devAddr : BitVec 7
  /-- `P_BASE / 64`, where the window sits in the host's address space. -/
  baseBlock : Nat
  /-- `P_CRC_IMPL`. -/
  crcImpl : CrcImpl
  /-- `P_CMD_LATENCY`, wait cycles of an access; no rule depends on it (70_reset_and_hazards.md R211). -/
  cmdLatency : Nat
  deriving DecidableEq, Repr

/-- `P_BASE`, the host byte address of the register window (10_state.md R24). -/
def Params.base (p : Params) : Nat := 64 * p.baseBlock

/-- The parameters State.reset takes: `P_DEVADDR` at its default 0x5A (00_scope.md R7). The three OPEN parameters take a
value of the model's choosing. DESIGN CHOICE, unsafe, log 2. -/
def Params.default : Params where
  devAddr := 0x5A#7
  baseBlock := 0
  crcImpl := .serial
  cmdLatency := 0

end Sys2Proof
end

