-- ==== Sys2Proof/Machine/State.lean ====
section
/-! DEFINITION. The machine's state: the elements of 10_state.md R20, the parameters, and the outside world as plain
data; the reasons a step can stop; reset. -/

namespace Sys2Proof.Machine

/-- The core's whole state (10_state.md R20), element by element with the widths the rule gives. -/
structure Elements where
  /-- `x[CRC]`, the CRC-8 accumulator. -/
  crc : Byte
  /-- `x[RX0]`, receive slot 0: raw low. -/
  rx0 : Byte
  /-- `x[RX1]`, receive slot 1: raw high. -/
  rx1 : Byte
  /-- `x[RX2]`, receive slot 2: device PEC. -/
  rx2 : Byte
  /-- `x[RXCNT]`, bytes written since the buffer was last emptied; 4 means more than 3. -/
  rxCnt : BitVec 3
  /-- `x[FB0]`, write-address byte of the last frame built. -/
  fb0 : Byte
  /-- `x[FB1]`, register byte of the last frame built. -/
  fb1 : Byte
  /-- `x[FB2]`, read-address byte of the last frame built. -/
  fb2 : Byte
  /-- `x[FB3]`, raw low byte of the last frame built. -/
  fb3 : Byte
  /-- `x[FB4]`, raw high byte of the last frame built. -/
  fb4 : Byte
  /-- `x[FPEC]`, the device PEC that came with the last frame built. -/
  fpec : Byte
  /-- `x[RAW]`, the raw word last converted. -/
  raw : Half
  /-- `x[TCC]`, last conversion in centi-Celsius, two's complement. -/
  tcc : Word
  /-- `x[TF64]`, last conversion, binary64 pattern. -/
  tf64 : Double
  /-- `x[TVER]`, 1 iff the last conversion written was a verified result. -/
  tver : BitVec 1
  /-- `x[CODE]`, outcome code of the last command. -/
  code : BitVec 4
  /-- `x[LASTOP]`, opcode field of the last command word written. -/
  lastOp : Byte
  deriving DecidableEq, Repr

/-- The machine: the core's elements, its parameters, and the host's side of the port. -/
structure State where
  /-- The parameters of this core (00_scope.md R7): no step changes them (log 1). -/
  params : Params
  /-- The core's own state: `x[NAME]` of the spec. -/
  x : Elements
  /-- Whether the reset input is asserted now (70_reset_and_hazards.md R200; log 8). -/
  resetLine : Bool
  /-- What the host does next, in issue order (20_memory.md R71, 30_encoding.md R88; log 4). -/
  pending : List HostEvent
  /-- What the host has been answered so far, oldest first (70_reset_and_hazards.md R217; log 5). -/
  replies : List Reply
  deriving DecidableEq, Repr

/-- Why the machine stops with a fault. -/
inductive Fault where
  /-- Raised by the step when the host's next access is outside the 64-byte window: it "does not reach the core at all"
  (60_exceptions.md R186), and what the host gets is the platform's. Safe (log 7). -/
  | outsideWindow (addr : Nat)
  deriving DecidableEq, Repr

/-- Why the model gives no meaning. -/
inductive Refusal where
  /-- Raised by exec for an instruction with no meaning yet; no instruction is left so. Safe. -/
  | notModelled (mnemonic : String)
  /-- Raised by the step for an access made while reset is asserted: "a model does not accept them"
  (93_implementation_defined.md, 70_reset_and_hazards.md R201). Safe (log 9). -/
  | accessDuringReset
  /-- Raised by `instantiate` for a device address above 0x7F (00_scope.md R8). Safe (log 21). -/
  | illegalDevAddr (value : Nat)
  /-- Raised by `instantiate` for a window address that is not a multiple of 64 (00_scope.md R7). Safe (log 21). -/
  | illegalBase (value : Nat)
  deriving DecidableEq, Repr

/-- `ResetState()` (70_reset_and_hazards.md R200): every element at the value 10_state.md R20 lists. -/
def Elements.reset : Elements where
  crc := 0x00#8
  rx0 := 0x00#8
  rx1 := 0x00#8
  rx2 := 0x00#8
  rxCnt := 0#3
  fb0 := 0x00#8
  fb1 := 0x00#8
  fb2 := 0x00#8
  fb3 := 0x00#8
  fb4 := 0x00#8
  fpec := 0x00#8
  raw := 0x0000#16
  tcc := 0x00000000#32
  tf64 := 0x0000000000000000#64
  tver := 0#1
  code := 0#4
  lastOp := 0x00#8

/-- A core with the parameters `p` right after reset: it waits for host accesses (70_reset_and_hazards.md R201). -/
def State.resetWith (p : Params) : State where
  params := p
  x := Elements.reset
  resetLine := false
  pending := []
  replies := []

/-- The machine right after reset (70_reset_and_hazards.md R200), with the parameters of log 2. -/
def State.reset : State := State.resetWith Params.default

end Sys2Proof.Machine
end

