-- ==== Sys2Proof/Machine/Flags.lean ====
section
/-! DEFINITION. STATUS: the outcome codes, the two status elements the commands write, and the word STATUS reads. The
core has no arithmetic flags (10_state.md R45). -/

namespace Sys2Proof.Machine

/-- NONE (10_state.md R33): no command since reset or SRST. -/
def codeNone : BitVec 4 := 0#4

/-- OK (10_state.md R33). -/
def codeOk : BitVec 4 := 1#4

/-- PEC_ERR (10_state.md R33, 60_exceptions.md R182). -/
def codePecErr : BitVec 4 := 2#4

/-- LEN_ERR (10_state.md R33, 60_exceptions.md R183). -/
def codeLenErr : BitVec 4 := 3#4

/-- REG_ERR (10_state.md R33, 60_exceptions.md R184). -/
def codeRegErr : BitVec 4 := 4#4

/-- CMD_ERR (10_state.md R33, 60_exceptions.md R185). -/
def codeCmdErr : BitVec 4 := 5#4

/-- `x[CODE] <- c`. -/
def Elements.setCode (c : BitVec 4) (x : Elements) : Elements := { x with code := c }

/-- `x[LASTOP] <- op` (30_encoding.md R86). -/
def Elements.setLastOp (op : Byte) (x : Elements) : Elements := { x with lastOp := op }

/-- The word STATUS reads (10_state.md R37); BUSY and the reserved bits are 0 (R35). -/
def statusWord (x : Elements) : Word :=
  (x.lastOp.zeroExtend 32 <<< 8) ||| (x.tver.zeroExtend 32 <<< 4) ||| x.code.zeroExtend 32

end Sys2Proof.Machine
end

