-- ==== Sys2Proof/Machine/Operands.lean ====
section
/-! DEFINITION. Values the commands assemble from their operands: the verification frame, the raw word, the register
identifiers, the byte of an RXBYTE write. -/

namespace Sys2Proof.Machine

/-- Byte 0 of the frame (41_frame_check.md R120): `(a << 1) | 0`. -/
def writeAddrByte (a : BitVec 7) : Byte := (a.zeroExtend 8 <<< 1) ||| 0#8

/-- Byte 2 of the frame (41_frame_check.md R120): `(a << 1) | 1`. -/
def readAddrByte (a : BitVec 7) : Byte := (a.zeroExtend 8 <<< 1) ||| 1#8

/-- `frame(a, r, lo, hi)` (41_frame_check.md R120), byte 0 first. -/
def frameBytes (a : BitVec 7) (r lo hi : Byte) : List Byte := [writeAddrByte a, r, readAddrByte a, lo, hi]

/-- `raw16(lo, hi)` (41_frame_check.md R121): little-endian. -/
def raw16 (lo hi : Byte) : Half := (hi.zeroExtend 16 <<< 8) ||| lo.zeroExtend 16

/-- `r` is in `TREG` (41_frame_check.md R122): ambient, object1 or object2. -/
def isTempReg (r : Byte) : Bool := r ∈ [0x06#8, 0x07#8, 0x08#8]

/-- The received byte of an RXBYTE write, `v[7:0]` (30_encoding.md R82, 43_control.md R163). -/
def pushedByte (v : Word) : Byte := v.extractLsb' 0 8

end Sys2Proof.Machine
end

