-- ==== Sys2Proof/Machine/Ops.lean ====
section
/-! DEFINITION. The named operations the instructions are made of: the accumulator, the receive buffer, the frame path,
the conversion registers, register reads, answering the host, BusError, and what the host does next. -/

namespace Sys2Proof.Machine

/-! ### CRC accumulator -/

/-- `x[CRC] <- c`. -/
def Elements.setCrc (c : Byte) (x : Elements) : Elements := { x with crc := c }

/-! ### Receive buffer -/

/-- `Consume()` (41_frame_check.md R126): the buffer is emptied. -/
def Elements.consume (x : Elements) : Elements := { x with rx0 := 0x00#8, rx1 := 0x00#8, rx2 := 0x00#8, rxCnt := 0#3 }

/-- The body of RXPUSH (43_control.md R163): append one byte; the count saturates at 4 and later bytes are dropped. -/
def Elements.push (b : Byte) (x : Elements) : Elements :=
  if x.rxCnt = 0#3 then { x with rx0 := b, rxCnt := 1#3 }
  else if x.rxCnt = 1#3 then { x with rx1 := b, rxCnt := 2#3 }
  else if x.rxCnt = 2#3 then { x with rx2 := b, rxCnt := 3#3 }
  else { x with rxCnt := 4#3 }

/-! ### Frame path -/

/-- `x[FB0..FB4]` and `x[FPEC]` take the frame of register byte `r`, the received data bytes and the received PEC
(41_frame_check.md R124). -/
def Elements.recordFrame (a : BitVec 7) (r : Byte) (x : Elements) : Elements :=
  { x with fb0 := writeAddrByte a, fb1 := r, fb2 := readAddrByte a, fb3 := x.rx0, fb4 := x.rx1, fpec := x.rx2 }

/-- What `FramePath` returns (41_frame_check.md R124): `LEN`, or `OK(raw, pec)`. -/
inductive FrameResult where
  | len
  | ok (raw : Half) (pec : Byte)
  deriving DecidableEq, Repr

/-- `FramePath(r)` (41_frame_check.md R124): check the length, build and record the frame, compute its CRC in the
accumulator, empty the buffer. On `LEN` only the buffer changes. -/
def framePath (p : Params) (r : Byte) (x : Elements) : Elements × FrameResult :=
  if x.rxCnt = 3#3 then
    (((x.recordFrame p.devAddr r).setCrc (crcEngineList p.crcImpl (frameBytes p.devAddr r x.rx0 x.rx1))).consume,
      .ok (raw16 x.rx0 x.rx1) x.rx2)
  else (x.consume, .len)

/-! ### Conversion registers -/

/-- `ConvWrite(raw, v)` (42_convert.md R145). -/
def Elements.convWrite (raw : Half) (v : BitVec 1) (x : Elements) : Elements :=
  { x with raw := raw, tcc := BitVec.ofInt 32 (convCc raw), tf64 := convF64 raw, tver := v }

/-- `ConvClear()` (42_convert.md R147). -/
def Elements.convClear (x : Elements) : Elements := { x with raw := 0#16, tcc := 0#32, tf64 := 0#64, tver := 0#1 }

/-! ### Register reads -/

/-- `ReadValue(off)` (43_control.md R165, 10_state.md R25 to R42). -/
def readValue (p : Params) (x : Elements) : Reg → Word
  | .id => 0x50454338#32
  | .cmd => 0x00000000#32
  | .status => statusWord x
  | .devAddr => p.devAddr.zeroExtend 32
  | .rxByte => 0x00000000#32
  | .rxBuf =>
    (x.rxCnt.zeroExtend 32 <<< 24) ||| (x.rx2.zeroExtend 32 <<< 16) ||| (x.rx1.zeroExtend 32 <<< 8)
      ||| x.rx0.zeroExtend 32
  | .crc => x.crc.zeroExtend 32
  | .frame0 =>
    (x.fb3.zeroExtend 32 <<< 24) ||| (x.fb2.zeroExtend 32 <<< 16) ||| (x.fb1.zeroExtend 32 <<< 8)
      ||| x.fb0.zeroExtend 32
  | .frame1 => (x.fpec.zeroExtend 32 <<< 8) ||| x.fb4.zeroExtend 32
  | .tempCc => x.tcc
  | .tempF64Lo => x.tf64.extractLsb' 0 32
  | .tempF64Hi => x.tf64.extractLsb' 32 32
  | .raw => x.raw.zeroExtend 32
  | .reserved34 => 0x00000000#32
  | .reserved38 => 0x00000000#32
  | .reserved3C => 0x00000000#32

/-- The byte the window shows at a host address (20_memory.md R64): little-endian lanes of the register there; none
outside the window. No access reads it alone (R63); it says how a register's value lies in the host's memory. -/
def windowByte (s : State) (addr : Nat) : Option Byte :=
  if s.params.base ≤ addr then
    (Reg.atOffset ((addr - s.params.base) / 4 * 4)).map fun reg =>
      (readValue s.params s.x reg).extractLsb' (8 * ((addr - s.params.base) % 4)) 8
  else none

/-! ### Answering the host -/

/-- The access ends and the host gets the answer `r`. -/
def State.answer (r : Reply) (s : State) : State := { s with replies := s.replies ++ [r] }

/-- A command's whole access (30_encoding.md R86): the decoder sets `x[LASTOP]`, the command's body runs, and the CMD
write completes (20_memory.md R68). -/
def State.runCommand (op : Byte) (body : Elements → Elements) (s : State) : State :=
  State.answer .completed { s with x := body (s.x.setLastOp op) }

/-- `raise BusError(addr)` (60_exceptions.md R186): the access ends with an error response; no element changes, and the
core goes on (70_reset_and_hazards.md R217; log 6). It is the one exception of the core (00_scope.md R13), and nothing
returns from it (60_exceptions.md R191). -/
def State.raiseBusError (addr : Nat) (s : State) : State := s.answer (.busError addr)

/-! ### Reset -/

/-- `ResetState()` on a running core (70_reset_and_hazards.md R200): every element, and only the elements. -/
def State.resetElements (s : State) : State := { s with x := Elements.reset }

/-! ### The host's side -/

/-- The host's next event and the state in which it is no longer pending (20_memory.md R71). -/
def nextEvent (s : State) : Option (HostEvent × State) :=
  match s.pending with
  | [] => none
  | e :: rest => some (e, { s with pending := rest })

/-- The state in which the host's next event is the given access, with reset released. -/
def State.placeAccess (a : Access) (s : State) : State :=
  { s with pending := .access a :: s.pending, resetLine := false }

/-- A core instantiated with the given parameters and reset. A device address above 0x7F is refused, not truncated
(00_scope.md R8), and so is a window address that is not aligned to 64 bytes (R7; log 21). -/
def instantiate (devAddr base : Nat) (impl : CrcImpl) (latency : Nat) : Host.Outcome State Fault Refusal :=
  if 0x7F < devAddr then .refused (.illegalDevAddr devAddr)
  else if base % 64 ≠ 0 then .refused (.illegalBase base)
  else .next (State.resetWith
    { devAddr := BitVec.ofNat 7 devAddr, baseBlock := base / 64, crcImpl := impl, cmdLatency := latency })

end Sys2Proof.Machine
end

