-- ==== Sys2Proof/Machine/ControlCommands.lean ====
section
/-! DEFINITION. The meanings of NOP, RX.CLEAR, SRST and ILLEGAL (43_control.md section 2). -/

namespace Sys2Proof.Machine

/-- NOP (43_control.md R160). -/
def execNop (s : State) : Host.Outcome State Fault Refusal :=
  .next (s.runCommand 0x00#8 fun x => x.setCode codeOk)

/-- RX.CLEAR (43_control.md R161). -/
def execRxClear (s : State) : Host.Outcome State Fault Refusal :=
  .next (s.runCommand 0x07#8 fun x => x.consume.setCode codeOk)

/-- SRST (43_control.md R162): `ResetState()`, which also takes `x[LASTOP]` back to 0x00 (30_encoding.md R86). -/
def execSrst (s : State) : Host.Outcome State Fault Refusal :=
  .next (s.runCommand 0x08#8 fun _ => Elements.reset)

/-- ILLEGAL (43_control.md R166): CMD_ERR, and the OP field in `x[LASTOP]`. -/
def execIllegal (w : Word) (s : State) : Host.Outcome State Fault Refusal :=
  .next (s.runCommand (cmdOp w) fun x => x.setCode codeCmdErr)

end Sys2Proof.Machine
end

