-- ==== Sys2Proof/Machine/ConvertCommands.lean ====
section
/-! DEFINITION. The meaning of CONVERT (42_convert.md section 2). -/

namespace Sys2Proof.Machine

/-- CONVERT h (42_convert.md R146): TVER becomes 0, because nothing was checked. -/
def execConvert (h : Half) (s : State) : Host.Outcome State Fault Refusal :=
  .next (s.runCommand 0x06#8 fun x => (x.convWrite h 0#1).setCode codeOk)

end Sys2Proof.Machine
end

