-- ==== Sys2Proof/Machine/CrcCommands.lean ====
section
/-! DEFINITION. The meanings of CRC.INIT and CRC.FEED (40_crc.md section 2). -/

namespace Sys2Proof.Machine

/-- CRC.INIT (40_crc.md R108). -/
def execCrcInit (s : State) : Host.Outcome State Fault Refusal :=
  .next (s.runCommand 0x01#8 fun x => (x.setCrc 0x00#8).setCode codeOk)

/-- CRC.FEED b (40_crc.md R109), with the engine `P_CRC_IMPL` names (R103). -/
def execCrcFeed (b : Byte) (s : State) : Host.Outcome State Fault Refusal :=
  .next (s.runCommand 0x02#8 fun x => (x.setCrc (crcEngine s.params.crcImpl x.crc b)).setCode codeOk)

end Sys2Proof.Machine
end

