-- ==== Sys2Proof/Machine/FrameCommands.lean ====
section
/-! DEFINITION. The meanings of FRAME, CHECK and READ (41_frame_check.md section 2). -/

namespace Sys2Proof.Machine

/-- The body of FRAME (41_frame_check.md R127). -/
def frameBody (p : Params) (r : Byte) (x : Elements) : Elements :=
  match framePath p r x with
  | (y, .len) => y.setCode codeLenErr
  | (y, .ok _ _) => y.setCode codeOk

/-- The body of CHECK (41_frame_check.md R128); the comparison is R125. -/
def checkBody (p : Params) (r : Byte) (x : Elements) : Elements :=
  match framePath p r x with
  | (y, .len) => y.setCode codeLenErr
  | (y, .ok _ pec) => if y.crc = pec then y.setCode codeOk else y.setCode codePecErr

/-- The body of READ (41_frame_check.md R129): the checks in the order of 60_exceptions.md R187. -/
def readBody (p : Params) (r : Byte) (x : Elements) : Elements :=
  if isTempReg r then
    match framePath p r x with
    | (y, .len) => y.convClear.setCode codeLenErr
    | (y, .ok raw pec) =>
      if y.crc = pec then (y.convWrite raw 1#1).setCode codeOk else y.convClear.setCode codePecErr
  else x.consume.convClear.setCode codeRegErr

/-- FRAME r (41_frame_check.md R127). -/
def execFrame (r : Byte) (s : State) : Host.Outcome State Fault Refusal :=
  .next (s.runCommand 0x03#8 (frameBody s.params r))

/-- CHECK r (41_frame_check.md R128). -/
def execCheck (r : Byte) (s : State) : Host.Outcome State Fault Refusal :=
  .next (s.runCommand 0x04#8 (checkBody s.params r))

/-- READ r (41_frame_check.md R129). -/
def execRead (r : Byte) (s : State) : Host.Outcome State Fault Refusal :=
  .next (s.runCommand 0x05#8 (readBody s.params r))

end Sys2Proof.Machine
end

