-- ==== Sys2Proof/Machine/PortOperations.lean ====
section
/-! DEFINITION. The meanings of RXPUSH, WR and RD (43_control.md section 3). -/

namespace Sys2Proof.Machine

/-- RXPUSH v (43_control.md R163): only `v[7:0]` is used; STATUS is unchanged. -/
def execRxPush (v : Word) (s : State) : Host.Outcome State Fault Refusal :=
  .next (State.answer .completed { s with x := s.x.push (pushedByte v) })

/-- WR to a register that takes no write (43_control.md R164): the write completes and nothing changes. -/
def execWr (_reg : Reg) (_v : Word) (s : State) : Host.Outcome State Fault Refusal :=
  .next (s.answer .completed)

/-- RD (43_control.md R165): the host gets the register's value, and nothing changes (20_memory.md R69). -/
def execRd (reg : Reg) (s : State) : Host.Outcome State Fault Refusal :=
  .next (s.answer (.data (readValue s.params s.x reg)))

end Sys2Proof.Machine
end

