-- ==== Sys2Proof/Machine/Dispatch.lean ====
section
/-! DEFINITION. One arm per instruction. -/

namespace Sys2Proof.Machine

-- The meaning of an instruction (30_encoding.md R86, 43_control.md R167): the access it is has left the host's queue.
def exec (i : Instr) (s : State) : Host.Outcome State Fault Refusal :=
  match i with
  | .nop => Sys2Proof.Machine.execNop s
  | .crcInit => Sys2Proof.Machine.execCrcInit s
  | .crcFeed b => Sys2Proof.Machine.execCrcFeed b s
  | .frame r => Sys2Proof.Machine.execFrame r s
  | .check r => Sys2Proof.Machine.execCheck r s
  | .read r => Sys2Proof.Machine.execRead r s
  | .convert h => Sys2Proof.Machine.execConvert h s
  | .rxClear => Sys2Proof.Machine.execRxClear s
  | .srst => Sys2Proof.Machine.execSrst s
  | .illegal w => Sys2Proof.Machine.execIllegal w s
  | .rxPush v => Sys2Proof.Machine.execRxPush v s
  | .wr reg v => Sys2Proof.Machine.execWr reg v s
  | .rd reg => Sys2Proof.Machine.execRd reg s

end Sys2Proof.Machine
end

