-- ==== Sys2Proof/Machine/Access.lean ====
section
/-! DEFINITION. What one event of the outside world does: a host access (43_control.md R167), or a change of the reset
input (70_reset_and_hazards.md R200). -/

namespace Sys2Proof.Machine

/-- `Access(dir, addr, n, be, v)` (43_control.md R167): BusError before any decoding (60_exceptions.md R188), otherwise
the instruction the access is. An access outside the window does not reach the core (R186; log 7). -/
def hostAccess (a : Access) (s : State) : Host.Outcome State Fault Refusal :=
  match decode s.params.base a with
  | .outside addr => .fault (.outsideWindow addr)
  | .busError addr => .next (s.raiseBusError addr)
  | .instr i => exec i s

/-- The reset input is asserted (70_reset_and_hazards.md R200). The core's elements cannot be seen until it is released
(R201; log 8). -/
def assertReset (s : State) : State := { s with resetLine := true }

/-- The reset input is released (70_reset_and_hazards.md R200): if it was asserted, `ResetState()` has run. -/
def releaseReset (s : State) : State :=
  if s.resetLine then { s.resetElements with resetLine := false } else s

/-- One event of the outside world. An access while reset is asserted is not accepted (70_reset_and_hazards.md R201,
93_implementation_defined.md; log 9). -/
def hostEvent (e : HostEvent) (s : State) : Host.Outcome State Fault Refusal :=
  match e with
  | .access a => if s.resetLine then .refused .accessDuringReset else hostAccess a s
  | .assertReset => .next (assertReset s)
  | .releaseReset => .next (releaseReset s)

end Sys2Proof.Machine
end

