-- ==== Sys2Proof/Machine/Step.lean ====
section
/-! DEFINITION. One step of the machine, and where the host places an instruction. -/

namespace Sys2Proof.Machine

/-- One step: the host's next event, one atomic step of the model (00_scope.md R15). The core takes no step of its own
(10_state.md R23): with nothing pending it waits, unchanged (70_reset_and_hazards.md R201; log 20). -/
def step (s : State) : Host.Outcome State Fault Refusal :=
  match nextEvent s with
  | none => .next s
  | some (e, s') => hostEvent e s'

/-- `s` with the instruction whose bits are `w`, numbered as spec/opcode_table.json numbers them, as the host's next
access: the very next step runs it. Where the bits stand for no access, nothing is placed. -/
def State.withFetchWord (s : State) (nbits w : Nat) : State :=
  match tableTriple nbits w with
  | some t => s.placeAccess (t.access s.params.base)
  | none => s

end Sys2Proof.Machine
end

