-- ==== Sys2Proof/Machine/Assembler.lean ====
section
/-! DEFINITION. Host programs: the assembler lines of 30_encoding.md R89 with their operand ranges, the
pseudo-instructions of R90, and a program of triples (R88) as the host's pending events. The lexical conventions of R89
(comments, number bases, spacing, the host's temporaries) are notation and are not modelled (log 16). -/

namespace Sys2Proof.Machine

/-- One assembler line (30_encoding.md R89, R90). Operands are numbers as the line writes them, before any range check;
a register name stands for its offset, and the temporary that `RD` names belongs to the host. The reserved offsets 0x34,
0x38 and 0x3C, to which 10_state.md R24 gives no name, may be named in `WR` and `RD` like the other registers. DESIGN
CHOICE, log 22. -/
inductive AsmLine where
  | nop
  | crcInit
  | crcFeed (b : Nat)
  | frame (r : Nat)
  | check (r : Nat)
  | read (r : Nat)
  | convert (h : Nat)
  | rxClear
  | srst
  | rxPush (b : Nat)
  /-- `WR NAME, v` (R89). The rule states no range for `v`; it is the 32-bit word of R88's triple. DEDUCED, log 24. -/
  | wr (reg : Reg) (v : Nat)
  | rd (reg : Reg)
  /-- `RXLOAD b0, b1, b2` (R90). -/
  | rxLoad (b0 b1 b2 : Nat)
  /-- `CRC.BYTES b1, ..., bn` (R90). The rule does not say whether n may be 0; the line with no operand is taken, and
  is CRC.INIT alone. DESIGN CHOICE, log 23. -/
  | crcBytes (bs : List Nat)
  /-- `RDF64 tlo, thi` (R90). -/
  | rdF64
  /-- `READTEMP r, b0, b1, b2, ts` (R90). -/
  | readTemp (r b0 b1 b2 : Nat)
  deriving DecidableEq, Repr

/-- A write of `v` to a register; an operand that does not fit the range `limit` is an assembly error, not truncated
(30_encoding.md R89). -/
def asmWrite (reg : Reg) (operand limit v : Nat) : Option (List Triple) :=
  if operand < limit then some [.wr reg.offset (BitVec.ofNat 32 v)] else none

/-- The expansion of pieces one after the other (30_encoding.md R90); an error in one is an error of the whole. DEDUCED,
log 24. -/
def asmJoin : List (Option (List Triple)) → Option (List Triple)
  | [] => some []
  | piece :: rest => piece.bind fun ts => (asmJoin rest).map fun us => ts ++ us

/-- `RXPUSH b` (30_encoding.md R89). -/
def asmRxPush (b : Nat) : Option (List Triple) := asmWrite .rxByte b 0x100 b

/-- A format B command: `(b << 8) | op` (30_encoding.md R89). -/
def asmByteCommand (op b : Nat) : Option (List Triple) := asmWrite .cmd b 0x100 (b * 2 ^ 8 + op)

/-- The triples of a line (30_encoding.md R89, R90); none where an operand is out of its range. The model's own
conventions are said at `AsmLine` (log 22, 23, 24). -/
def assemble : AsmLine → Option (List Triple)
  | .nop => asmWrite .cmd 0 1 0x00000000
  | .crcInit => asmWrite .cmd 0 1 0x00000001
  | .crcFeed b => asmByteCommand 0x02 b
  | .frame r => asmByteCommand 0x03 r
  | .check r => asmByteCommand 0x04 r
  | .read r => asmByteCommand 0x05 r
  | .convert h => asmWrite .cmd h 0x10000 (h * 2 ^ 16 + 0x06)
  | .rxClear => asmWrite .cmd 0 1 0x00000007
  | .srst => asmWrite .cmd 0 1 0x00000008
  | .rxPush b => asmRxPush b
  | .wr reg v => asmWrite reg v (2 ^ 32) v
  | .rd reg => some [.rd reg.offset]
  | .rxLoad b0 b1 b2 => asmJoin [asmRxPush b0, asmRxPush b1, asmRxPush b2]
  | .crcBytes bs => asmJoin (asmWrite .cmd 0 1 0x00000001 :: bs.map (asmByteCommand 0x02))
  | .rdF64 => some [.rd Reg.tempF64Lo.offset, .rd Reg.tempF64Hi.offset]
  | .readTemp r b0 b1 b2 =>
    asmJoin [asmRxPush b0, asmRxPush b1, asmRxPush b2, asmByteCommand 0x05 r, some [.rd Reg.status.offset]]

/-- The events a program of triples is, for a window at `base` (30_encoding.md R88). -/
def programEvents (base : Nat) (ts : List Triple) : List HostEvent := ts.map fun t => .access (t.access base)

/-- A state in which the host goes on with a program (30_encoding.md R88) after what it has pending. -/
def State.loadProgram (ts : List Triple) (s : State) : State :=
  { s with pending := s.pending ++ programEvents s.params.base ts }

end Sys2Proof.Machine
end

