-- ==== Sys2Proof/Safety.lean ====
section
/-! DEFINITION. What counts as a good state and a good run: the invariants of the elements, and the accesses the core
must answer. -/

namespace Sys2Proof.Safety

open Sys2Proof.Machine

/-! ### Invariants of the elements -/

/-- 10_state.md R20: the count is at most 4, and a slot at or above it holds 0x00. -/
abbrev RxWf (x : Elements) : Prop :=
  x.rxCnt ≤ 4#3 ∧ (x.rxCnt ≤ 2#3 → x.rx2 = 0x00#8) ∧ (x.rxCnt ≤ 1#3 → x.rx1 = 0x00#8) ∧ (x.rxCnt = 0#3 → x.rx0 = 0x00#8)

/-- 10_state.md R33 and 60_exceptions.md R181: CODE is one of the six values, and it is one that the command in LAST_OP
can set (NONE only before any command, PEC_ERR by CHECK and READ, LEN_ERR by FRAME, CHECK and READ, REG_ERR by READ,
OK by a command other than SRST). -/
abbrev OutcomeWf (x : Elements) : Prop :=
  x.code ≤ 5#4 ∧ (x.code = 0#4 → x.lastOp = 0x00#8) ∧ (x.code = 1#4 → x.lastOp ≤ 0x07#8)
    ∧ (x.code = 2#4 → x.lastOp = 0x04#8 ∨ x.lastOp = 0x05#8)
    ∧ (x.code = 3#4 → x.lastOp = 0x03#8 ∨ x.lastOp = 0x04#8 ∨ x.lastOp = 0x05#8)
    ∧ (x.code = 4#4 → x.lastOp = 0x05#8)

/-- 10_state.md R34, R38, R39: the result registers hold one conversion, or are cleared with TVER = 0. -/
abbrev ConvWf (x : Elements) : Prop :=
  (x.raw = 0#16 ∧ x.tcc = 0#32 ∧ x.tf64 = 0#64 ∧ x.tver = 0#1)
    ∨ (x.tcc = BitVec.ofInt 32 (convCc x.raw) ∧ x.tf64 = convF64 x.raw)

/-- 41_frame_check.md R130 (b): the recorded frame has the address bytes of `P_DEVADDR`, or no frame was built yet. -/
abbrev FrameWf (p : Params) (x : Elements) : Prop :=
  (x.fb0 = 0#8 ∧ x.fb1 = 0#8 ∧ x.fb2 = 0#8 ∧ x.fb3 = 0#8 ∧ x.fb4 = 0#8 ∧ x.fpec = 0#8)
    ∨ (x.fb0 = BitVec.ofNat 8 (2 * p.devAddr.toNat) ∧ x.fb2 = BitVec.ofNat 8 (2 * p.devAddr.toNat + 1))

/-- The CRC register holds the checksum of the recorded frame. -/
abbrev CrcOfFrame (x : Elements) : Prop := x.crc = crc8 [x.fb0, x.fb1, x.fb2, x.fb3, x.fb4]

/-- 60_exceptions.md R181, column "recorded", and 41_frame_check.md R127 to R129: STATUS tells the truth about the other
registers until the next command. -/
abbrev RecordWf (x : Elements) : Prop :=
  (x.code = 1#4 → x.lastOp = 0x03#8 → CrcOfFrame x)
    ∧ (x.code = 1#4 → x.lastOp = 0x04#8 ∨ x.lastOp = 0x05#8 → CrcOfFrame x ∧ x.crc = x.fpec)
    ∧ (x.code = 1#4 → x.lastOp = 0x05#8 → x.tver = 1#1 ∧ x.raw = BitVec.ofNat 16 (256 * x.fb4.toNat + x.fb3.toNat))
    ∧ (x.code = 1#4 → x.lastOp = 0x06#8 → x.tver = 0#1)
    ∧ (x.code = 2#4 → CrcOfFrame x ∧ x.crc ≠ x.fpec)
    ∧ (x.code = 2#4 ∨ x.code = 3#4 ∨ x.code = 4#4 → x.lastOp = 0x05#8 →
        x.raw = 0#16 ∧ x.tcc = 0#32 ∧ x.tf64 = 0#64 ∧ x.tver = 0#1)

/-- The invariant of the machine: what every rule keeps. -/
abbrev MachineInv (s : State) : Prop :=
  RxWf s.x ∧ OutcomeWf s.x ∧ ConvWf s.x ∧ FrameWf s.params s.x ∧ RecordWf s.x

/-! ### Runs -/

/-- `n` steps, stopping at the first fault or refusal (`Host.Core.run` of the machine, with its types written out). -/
def run : Nat → State → Host.Outcome State Fault Refusal
  | 0, s => .next s
  | n + 1, s =>
    match step s with
    | .next t => run n t
    | .fault f => .fault f
    | .refused r => .refused r

/-! ### Accesses -/

/-- An access of the core's: it is in the 64-byte window at `base` (20_memory.md R60). -/
abbrev InWindow (base : Nat) (a : Access) : Prop := base ≤ a.addr ∧ a.addr < base + 64

/-- The host event is an access in the window at `base`. -/
def IsWindowAccess (base : Nat) (e : HostEvent) : Prop := ∃ a, e = .access a ∧ InWindow base a

/-- A legal 32-bit write at the window offset `off` (20_memory.md R61). -/
def IsWriteAt (base off : Nat) (a : Access) : Prop := ∃ v, a = .write (base + off) 4 0xF#4 v

/-- The access is malformed (43_control.md R167, 20_memory.md R62, R63): another size than 4 bytes, a misaligned offset,
or a write without all four byte enables. -/
def Malformed (base : Nat) : Access → Prop
  | .read addr n => n ≠ 4 ∨ (addr - base) % 4 ≠ 0
  | .write addr n be _ => n ≠ 4 ∨ (addr - base) % 4 ≠ 0 ∨ be ≠ 0xF#4

end Sys2Proof.Safety
end

