-- ==== Sys2Proof/Certificates/Slice0/Obligations.lean ====
section
/-! DEFINITION. The statements for the provers, and the spec-side notions they are written in. -/

namespace Sys2Proof.Statements

open Sys2Proof.Machine

/-! ### Elements after the shared parts of a command, written from the rules -/

/-- Byte 0 of the verification frame, the address with the write bit 0 below it (41_frame_check.md R120). -/
def writeAddr (p : Params) : Byte := BitVec.ofNat 8 (2 * p.devAddr.toNat)

/-- Byte 2 of the verification frame, the address with the read bit 1 below it (41_frame_check.md R120). -/
def readAddr (p : Params) : Byte := BitVec.ofNat 8 (2 * p.devAddr.toNat + 1)

/-- The raw word of two received bytes (41_frame_check.md R121): the second byte is the high one. -/
def rawOf (lo hi : Byte) : Half := BitVec.ofNat 16 (256 * hi.toNat + lo.toNat)

/-- The CRC-8 of the verification frame of `P_DEVADDR`, register byte `r` and the first two received bytes
(41_frame_check.md R120, R124). -/
def frameCrc (p : Params) (r : Byte) (x : Elements) : Byte :=
  crc8 [writeAddr p, r, readAddr p, x.rx0, x.rx1]

/-- The receive buffer emptied (41_frame_check.md R126). -/
def emptied (x : Elements) : Elements := { x with rx0 := 0x00#8, rx1 := 0x00#8, rx2 := 0x00#8, rxCnt := 0#3 }

/-- The frame built, its CRC in the accumulator, the buffer emptied (41_frame_check.md R124). -/
def framed (p : Params) (r : Byte) (x : Elements) : Elements :=
  { x with
    fb0 := writeAddr p, fb1 := r, fb2 := readAddr p, fb3 := x.rx0, fb4 := x.rx1, fpec := x.rx2,
    crc := frameCrc p r x, rx0 := 0x00#8, rx1 := 0x00#8, rx2 := 0x00#8, rxCnt := 0#3 }

/-- The conversion registers cleared (42_convert.md R147). -/
def cleared (x : Elements) : Elements := { x with raw := 0#16, tcc := 0#32, tf64 := 0#64, tver := 0#1 }

/-- The conversion of `raw` in the conversion registers (42_convert.md R140, R145). -/
def converted (raw : Half) (v : BitVec 1) (x : Elements) : Elements :=
  { x with raw := raw, tcc := BitVec.ofInt 32 (2 * (raw.toNat : Int) - 27315), tf64 := convF64 raw, tver := v }

/-- The raw word in the receive buffer. -/
def receivedRaw (x : Elements) : Half := rawOf x.rx0 x.rx1

/-- `r` is one of the three temperature registers (41_frame_check.md R122). -/
abbrev TempReg (r : Byte) : Prop := r = 0x06#8 ∨ r = 0x07#8 ∨ r = 0x08#8

/-- The state after an access that leaves the elements `x` and is answered `r`: everything else is unchanged. -/
def answered (s : State) (x : Elements) (r : Reply) : State := { s with x := x, replies := s.replies ++ [r] }

/-- The events that push the given words into RXBYTE one after the other (43_control.md R163). -/
def pushes (base : Nat) (vs : List Word) : List HostEvent := vs.map fun v => .access (encode base (.rxPush v))

/-- The offset of each register in the window, from the table of 10_state.md R24. -/
def offsetInMap : Reg → Nat
  | .id => 0x00
  | .cmd => 0x04
  | .status => 0x08
  | .devAddr => 0x0C
  | .rxByte => 0x10
  | .rxBuf => 0x14
  | .crc => 0x18
  | .frame0 => 0x1C
  | .frame1 => 0x20
  | .tempCc => 0x24
  | .tempF64Lo => 0x28
  | .tempF64Hi => 0x2C
  | .raw => 0x30
  | .reserved34 => 0x34
  | .reserved38 => 0x38
  | .reserved3C => 0x3C

/-- What an assembler line's triples decode to, in a window at `base`; none where the line is an assembly error. -/
def decodedLine (base : Nat) (line : AsmLine) : Option (List Decoded) :=
  (assemble line).map (List.map fun t => decode base (t.access base))

/-- The triples of several assembler lines, one after the other; none where one of them is an assembly error. -/
def linesInOrder (lines : List AsmLine) : Option (List Triple) := (lines.mapM assemble).map List.flatten

/-- A command word matches no row of the opcode map (30_encoding.md R83, R84). -/
def MatchesNoRow (w : Word) : Prop := ∀ r ∈ opcodeMap, w &&& r.mask ≠ r.pattern

/-! ### Binary64 rounding, said without an algorithm -/

/-- The rational number a finite binary64 pattern stands for. -/
def valueOfBits (b : Double) : ℚ := (exactOfBits b).num * (2 : ℚ) ^ (exactOfBits b).exp

/-- The pattern is finite: its exponent field is not all ones. -/
def IsFinite64 (b : Double) : Prop := b.extractLsb' 52 11 ≠ 0x7FF#11

/-- `b` is `RNE64(q)` (42_convert.md R142): finite, no finite binary64 value is nearer to `q`, and if another value is
equally near, `b`'s significand is even. -/
def IsNearestEven (q : ℚ) (b : Double) : Prop :=
  IsFinite64 b ∧
    ∀ c : Double, IsFinite64 c →
      |valueOfBits b - q| ≤ |valueOfBits c - q|
        ∧ (|valueOfBits b - q| = |valueOfBits c - q| → valueOfBits c ≠ valueOfBits b → b.getLsbD 0 = false)

/-! ### The checksum as a polynomial remainder -/

/-- The polynomial over the two-element field whose coefficient of `X ^ i` is bit `i` of the byte. -/
noncomputable def bytePoly (b : Byte) : Polynomial (ZMod 2) :=
  ∑ i ∈ Finset.range 8, if b.getLsbD i then Polynomial.X ^ i else 0

/-- The polynomial of a byte sequence, first byte and most significant bit first (40_crc.md R102: input not
reflected). -/
noncomputable def messagePoly (bs : List Byte) : Polynomial (ZMod 2) :=
  bs.foldl (fun acc b => acc * Polynomial.X ^ 8 + bytePoly b) 0

/-- The generator polynomial of 40_crc.md R102, x^8 + x^2 + x + 1. -/
noncomputable def generatorPoly : Polynomial (ZMod 2) :=
  Polynomial.X ^ 8 + Polynomial.X ^ 2 + Polynomial.X + 1

end Sys2Proof.Statements

open Sys2Proof Sys2Proof.Machine Sys2Proof.Safety Sys2Proof.Statements

/-! ### Encoding and decoding -/

/-- 30_encoding.md R80 to R89: decoding the access of any well-formed instruction gives that instruction, for every
operand and every place of the window. -/
def Obligations.DecodeInvertsEncode : Prop :=
  ∀ (base : Nat) (i : Instr), i.wellFormed = true → decode base (encode base i) = .instr i

/-- Whatever access decodes to an instruction, the instruction is well-formed and the access is its encoding: no bit of
an access is read that the encoding does not fix, and none is ignored. -/
def Obligations.EncodeInvertsDecode : Prop :=
  ∀ (base : Nat) (a : Access) (i : Instr),
    decode base a = .instr i → i.wellFormed = true ∧ encode base i = a

/-- The encodings of 30_encoding.md R89's table, as 32-bit writes and reads of the window (R88, 20_memory.md R61), each
register at its offset of 10_state.md R24. -/
def Obligations.EncodingsFollowTheAssemblerTable : Prop :=
  ∀ (base : Nat) (b : Byte) (h : Half) (v : Word) (reg : Reg),
    encode base .nop = .write (base + 0x04) 4 0xF#4 0x00000000#32
      ∧ encode base .crcInit = .write (base + 0x04) 4 0xF#4 0x00000001#32
      ∧ encode base (.crcFeed b) = .write (base + 0x04) 4 0xF#4 ((b.setWidth 32 <<< 8) ||| 0x02#32)
      ∧ encode base (.frame b) = .write (base + 0x04) 4 0xF#4 ((b.setWidth 32 <<< 8) ||| 0x03#32)
      ∧ encode base (.check b) = .write (base + 0x04) 4 0xF#4 ((b.setWidth 32 <<< 8) ||| 0x04#32)
      ∧ encode base (.read b) = .write (base + 0x04) 4 0xF#4 ((b.setWidth 32 <<< 8) ||| 0x05#32)
      ∧ encode base (.convert h) = .write (base + 0x04) 4 0xF#4 ((h.setWidth 32 <<< 16) ||| 0x06#32)
      ∧ encode base .rxClear = .write (base + 0x04) 4 0xF#4 0x00000007#32
      ∧ encode base .srst = .write (base + 0x04) 4 0xF#4 0x00000008#32
      ∧ encode base (.illegal v) = .write (base + 0x04) 4 0xF#4 v
      ∧ encode base (.rxPush v) = .write (base + 0x10) 4 0xF#4 v
      ∧ encode base (.wr reg v) = .write (base + offsetInMap reg) 4 0xF#4 v
      ∧ encode base (.rd reg) = .read (base + offsetInMap reg) 4

/-- 30_encoding.md R83: at most one row of the opcode map matches a command word. -/
def Obligations.AtMostOneOpcodeRowMatches : Prop :=
  ∀ (w : Word) (r r' : OpRow), r ∈ opcodeMap → r' ∈ opcodeMap →
    w &&& r.mask = r.pattern → w &&& r'.mask = r'.pattern → r = r'

/-- 43_control.md R166 and 30_encoding.md R84: the words that match no row are those with an OP above 0x08 and those
with a non-zero field their format does not use; they and only they decode to ILLEGAL; ILLEGAL changes CODE and LAST_OP
and nothing else, and its write completes. -/
def Obligations.IllegalWordsOnlyChangeStatus : Prop :=
  (∀ w : Word, decodeCommand w = .illegal w ↔ MatchesNoRow w)
    ∧ (∀ w : Word, MatchesNoRow w ↔
        0x09#8 ≤ w.setWidth 8
          ∨ w.setWidth 8 ∈ [0x00#8, 0x01#8, 0x07#8, 0x08#8] ∧ 2 ^ 8 ≤ w.toNat
          ∨ w.setWidth 8 ∈ [0x02#8, 0x03#8, 0x04#8, 0x05#8] ∧ 2 ^ 16 ≤ w.toNat
          ∨ w.setWidth 8 = 0x06#8 ∧ w.toNat / 2 ^ 8 % 2 ^ 8 ≠ 0)
    ∧ ∀ (w : Word) (s : State), MatchesNoRow w →
        exec (.illegal w) s
          = .next (answered s { s.x with code := 5#4, lastOp := w.setWidth 8 } .completed)

/-- Words written out from the encodings of 30_encoding.md R83 decode to the instructions they stand for. -/
def Obligations.SampleWordsDecode : Prop :=
  decodeCommand 0x00000000#32 = .nop ∧ decodeCommand 0x0000B402#32 = .crcFeed 0xB4#8
    ∧ decodeCommand 0x00000703#32 = .frame 0x07#8 ∧ decodeCommand 0x00000604#32 = .check 0x06#8
    ∧ decodeCommand 0x00000805#32 = .read 0x08#8 ∧ decodeCommand 0x35C20006#32 = .convert 0x35C2#16
    ∧ decodeCommand 0x00000008#32 = .srst ∧ decodeCommand 0x00010002#32 = .illegal 0x00010002#32
    ∧ decode 0x40 (.write 0x50 4 0xF#4 0x000000A4#32) = .instr (.rxPush 0x000000A4#32)
    ∧ decode 0x40 (.write 0x48 4 0xF#4 0xFFFFFFFF#32) = .instr (.wr .status 0xFFFFFFFF#32)
    ∧ decode 0x40 (.read 0x4C 4) = .instr (.rd .devAddr)

/-- 30_encoding.md R89: every line of the table, its operands in range, gives triples that decode to its instruction,
and an operand out of its range is an assembly error; R90: every pseudo-instruction is its lines one after the other, and
an error in one is an error of the whole. The model's own conventions in it: the reserved offsets have names (log 22),
CRC.BYTES may have no operand (log 23), and the range of `WR`'s word and the error of a pseudo-instruction are read from
the rules (log 24). -/
def Obligations.AssembledLinesDecode : Prop :=
  (∀ base : Nat,
      decodedLine base .nop = some [.instr .nop] ∧ decodedLine base .crcInit = some [.instr .crcInit]
        ∧ decodedLine base .rxClear = some [.instr .rxClear] ∧ decodedLine base .srst = some [.instr .srst])
    ∧ (∀ base b : Nat, b < 0x100 →
      decodedLine base (.crcFeed b) = some [.instr (.crcFeed (BitVec.ofNat 8 b))]
        ∧ decodedLine base (.frame b) = some [.instr (.frame (BitVec.ofNat 8 b))]
        ∧ decodedLine base (.check b) = some [.instr (.check (BitVec.ofNat 8 b))]
        ∧ decodedLine base (.read b) = some [.instr (.read (BitVec.ofNat 8 b))]
        ∧ decodedLine base (.rxPush b) = some [.instr (.rxPush (BitVec.ofNat 32 b))])
    ∧ (∀ base h : Nat, h < 0x10000 → decodedLine base (.convert h) = some [.instr (.convert (BitVec.ofNat 16 h))])
    ∧ (∀ (reg : Reg) (v : Nat), v < 2 ^ 32 →
      assemble (.wr reg v) = some [.wr (BitVec.ofNat 6 (offsetInMap reg)) (BitVec.ofNat 32 v)])
    ∧ (∀ (base : Nat) (reg : Reg), assemble (.rd reg) = some [.rd (BitVec.ofNat 6 (offsetInMap reg))]
        ∧ decodedLine base (.rd reg) = some [.instr (.rd reg)])
    ∧ (∀ b : Nat, 0x100 ≤ b → assemble (.crcFeed b) = none ∧ assemble (.frame b) = none
        ∧ assemble (.check b) = none ∧ assemble (.read b) = none ∧ assemble (.rxPush b) = none)
    ∧ (∀ h : Nat, 0x10000 ≤ h → assemble (.convert h) = none)
    ∧ (∀ (reg : Reg) (v : Nat), 2 ^ 32 ≤ v → assemble (.wr reg v) = none)
    ∧ (∀ b0 b1 b2 : Nat, assemble (.rxLoad b0 b1 b2) = linesInOrder [.rxPush b0, .rxPush b1, .rxPush b2]
        ∧ (assemble (.rxLoad b0 b1 b2) = none ↔ 0x100 ≤ b0 ∨ 0x100 ≤ b1 ∨ 0x100 ≤ b2))
    ∧ (∀ bs : List Nat, assemble (.crcBytes bs) = linesInOrder (.crcInit :: bs.map .crcFeed)
        ∧ (assemble (.crcBytes bs) = none ↔ ∃ b ∈ bs, 0x100 ≤ b)
        ∧ ∀ base : Nat, (∀ b ∈ bs, b < 0x100) →
          decodedLine base (.crcBytes bs)
            = some (.instr .crcInit :: bs.map fun b => .instr (.crcFeed (BitVec.ofNat 8 b))))
    ∧ assemble .rdF64 = linesInOrder [.rd .tempF64Lo, .rd .tempF64Hi]
    ∧ (∀ r b0 b1 b2 : Nat, assemble (.readTemp r b0 b1 b2) = linesInOrder [.rxLoad b0 b1 b2, .read r, .rd .status]
        ∧ (assemble (.readTemp r b0 b1 b2) = none ↔ 0x100 ≤ r ∨ 0x100 ≤ b0 ∨ 0x100 ≤ b1 ∨ 0x100 ≤ b2))
    ∧ ∀ r b0 b1 b2 : Nat, r < 0x100 → b0 < 0x100 → b1 < 0x100 → b2 < 0x100 →
        assemble (.readTemp r b0 b1 b2)
          = some [.wr 0x10#6 (BitVec.ofNat 32 b0), .wr 0x10#6 (BitVec.ofNat 32 b1), .wr 0x10#6 (BitVec.ofNat 32 b2),
              .wr 0x04#6 (BitVec.ofNat 32 (r * 256 + 5)), .rd 0x08#6]

/-! ### The step -/

/-- When the host's next access decodes to a well-formed instruction, the step takes the access from the queue and runs
that instruction. -/
def Obligations.StepRunsDecodedInstruction : Prop :=
  ∀ (s : State) (a : Access) (rest : List HostEvent) (i : Instr),
    s.pending = .access a :: rest → s.resetLine = false → decode s.params.base a = .instr i →
    i.wellFormed = true → step s = exec i { s with pending := rest }

/-- A command word placed by `withFetchWord` is what the next step runs (log 4). -/
def Obligations.PlacedCommandWordRunsNext : Prop :=
  ∀ (s : State) (w : Word), s.resetLine = false → step (s.withFetchWord 32 w.toNat) = exec (decodeCommand w) s

/-- Every instruction completes with exactly one answer, never an error response, and touches neither the parameters,
the reset input nor what the host still has to do (20_memory.md R68, 60_exceptions.md R180). -/
def Obligations.EveryInstructionCompletes : Prop :=
  ∀ (i : Instr) (s : State), ∃ t r,
    exec i s = .next t ∧ t.replies = s.replies ++ [r] ∧ (∀ addr, r ≠ .busError addr)
      ∧ t.params = s.params ∧ t.pending = s.pending ∧ t.resetLine = s.resetLine

/-- From 43_control.md R167, 20_memory.md R62, R63 and 60_exceptions.md R186: a misaligned access, one of another size than
4 bytes, or a write without all byte enables is answered by BusError and changes nothing; and no other access of the
window is. A BusError is a next state that records the response (log 6, DEDUCED), and byte enables are four bits
(log 12, DESIGN CHOICE). -/
def Obligations.ExactlyMalformedAccessesAreBusErrors : Prop :=
  ∀ (s : State) (a : Access) (rest : List HostEvent),
    s.pending = .access a :: rest → s.resetLine = false → InWindow s.params.base a →
      (Malformed s.params.base a →
          step s = .next { s with pending := rest, replies := s.replies ++ [.busError a.addr] })
        ∧ (¬ Malformed s.params.base a →
          ∃ t r, step s = .next t ∧ t.replies = s.replies ++ [r] ∧ ∀ addr, r ≠ .busError addr)

/-- An access outside the window faults by name (log 7: the model's choice for what 60_exceptions.md R186 says does not
reach the core). -/
def Obligations.AccessOutsideWindowFaults : Prop :=
  ∀ (s : State) (a : Access) (rest : List HostEvent),
    s.pending = .access a :: rest → s.resetLine = false → ¬ InWindow s.params.base a →
    step s = .fault (.outsideWindow a.addr)

/-- An access made while reset is asserted is refused by name (93_implementation_defined.md; log 9). -/
def Obligations.AccessDuringResetRefused : Prop :=
  ∀ (s : State) (a : Access) (rest : List HostEvent),
    s.pending = .access a :: rest → s.resetLine = true → step s = .refused .accessDuringReset

/-- With nothing pending the core waits, unchanged (10_state.md R23; log 20). -/
def Obligations.CoreWaitsForTheHost : Prop := ∀ s : State, s.pending = [] → step s = .next s

/-! ### Reset -/

/-- 70_reset_and_hazards.md R200: when reset is asserted and released, every element takes its reset value, and nothing
else of the core changes. -/
def Obligations.ResetInputResetsEveryElement : Prop :=
  ∀ (s : State) (rest : List HostEvent), s.pending = .assertReset :: .releaseReset :: rest →
    ∃ u, step s = .next u
      ∧ step u = .next
          { s with
            pending := rest, resetLine := false,
            x := { crc := 0x00#8, rx0 := 0x00#8, rx1 := 0x00#8, rx2 := 0x00#8, rxCnt := 0#3, fb0 := 0x00#8,
                   fb1 := 0x00#8, fb2 := 0x00#8, fb3 := 0x00#8, fb4 := 0x00#8, fpec := 0x00#8, raw := 0x0000#16,
                   tcc := 0x00000000#32, tf64 := 0x0000000000000000#64, tver := 0#1, code := 0#4,
                   lastOp := 0x00#8 } }

/-- 43_control.md R162: only the word 8 is SRST, and it gives every element its reset value, LAST_OP among them; the
parameters stay. -/
def Obligations.SoftResetResetsEveryElement : Prop :=
  (∀ w : Word, decodeCommand w = .srst ↔ w = 0x00000008#32)
    ∧ ∀ s : State, exec .srst s = .next
      (answered s
        { crc := 0x00#8, rx0 := 0x00#8, rx1 := 0x00#8, rx2 := 0x00#8, rxCnt := 0#3, fb0 := 0x00#8, fb1 := 0x00#8,
          fb2 := 0x00#8, fb3 := 0x00#8, fb4 := 0x00#8, fpec := 0x00#8, raw := 0x0000#16, tcc := 0x00000000#32,
          tf64 := 0x0000000000000000#64, tver := 0#1, code := 0#4, lastOp := 0x00#8 }
        .completed)

/-- 70_reset_and_hazards.md R203: what the host reads in each register after reset, for every instantiation. -/
def Obligations.RegistersAfterReset : Prop :=
  ∀ (p : Params) (reg : Reg),
    exec (.rd reg) (State.resetWith p) = .next
      { State.resetWith p with
        replies := [.data (match reg with
          | .id => 0x50454338#32
          | .devAddr => p.devAddr.setWidth 32
          | _ => 0x00000000#32)] }

/-- 70_reset_and_hazards.md R202: after SRST and after the reset input, no events of the host, however many, can tell
which of the two happened: the elements and the further answers are the same. -/
def Obligations.SoftAndHardResetIndistinguishable : Prop :=
  ∀ (s s' t t' u : State) (events : List HostEvent) (n : Nat),
    s.params = s'.params →
    s.pending = .access (encode s.params.base .srst) :: events → s.resetLine = false →
    s'.pending = .releaseReset :: events → s'.resetLine = true →
    step s = .next t → step s' = .next t' →
    run n t = .next u →
    ∃ u' new, run n t' = .next u' ∧ u'.x = u.x
      ∧ u.replies = t.replies ++ new ∧ u'.replies = t'.replies ++ new

/-! ### The CRC engine and its commands -/

/-- From 40_crc.md R100 to R102: `crc8` is the remainder of the message polynomial times x^8 by x^8 + x^2 + x + 1, with initial value
0x00, most significant bits first, no reflection and no final XOR. -/
def Obligations.ChecksumIsPolynomialRemainder : Prop :=
  ∀ bs : List Byte, ∃ q : Polynomial (ZMod 2),
    messagePoly bs * Polynomial.X ^ 8 = q * generatorPoly + bytePoly (crc8 bs)

/-- 40_crc.md R104: the table has 256 entries, and entry `i` is `crc8_byte(0x00, i)`. -/
def Obligations.TableHoldsCrcOfEveryByte : Prop :=
  crcTable.length = 256 ∧ ∀ i : Byte, crcTable[i.toNat]? = some (crc8Byte 0x00#8 i)

/-- 40_crc.md R103: the table form equals the bit-serial form for all pairs, and `P_CRC_IMPL` changes no step. -/
def Obligations.CrcImplementationIsUnobservable : Prop :=
  (∀ c b : Byte, crcTableEntry (c ^^^ b) = crc8Byte c b)
    ∧ ∀ (s : State) (impl : CrcImpl),
        step { s with params := { s.params with crcImpl := impl } }
          = match step s with
            | .next t => .next { t with params := { t.params with crcImpl := impl } }
            | .fault f => .fault f
            | .refused r => .refused r

/-- 70_reset_and_hazards.md R211, R218: the wait states change no step. -/
def Obligations.LatencyIsUnobservable : Prop :=
  ∀ (s : State) (n : Nat),
    step { s with params := { s.params with cmdLatency := n } }
      = match step s with
        | .next t => .next { t with params := { t.params with cmdLatency := n } }
        | .fault f => .fault f
        | .refused r => .refused r

/-- 40_crc.md R107: linearity of the table, the self-check law, detection of every single-byte error at every length,
and the catalogue check value. -/
def Obligations.ChecksumLaws : Prop :=
  (∀ a b : Byte, crcTableEntry (a ^^^ b) = crcTableEntry a ^^^ crcTableEntry b) ∧ crcTableEntry 0x00#8 = 0x00#8
    ∧ (∀ bs : List Byte, bs ≠ [] → crc8 (bs ++ [crc8 bs]) = 0x00#8)
    ∧ (∀ (front back : List Byte) (a b : Byte), a ≠ b → crc8 (front ++ a :: back) ≠ crc8 (front ++ b :: back))
    ∧ crc8 [0x31#8, 0x32#8, 0x33#8, 0x34#8, 0x35#8, 0x36#8, 0x37#8, 0x38#8, 0x39#8] = 0xF4#8

/-- 40_crc.md R108: CRC.INIT, its one command word and its whole effect. -/
def Obligations.CrcInitClearsAccumulator : Prop :=
  (∀ w : Word, decodeCommand w = .crcInit ↔ w = 0x00000001#32)
    ∧ ∀ s : State, exec .crcInit s
      = .next (answered s { s.x with crc := 0x00#8, code := 1#4, lastOp := 0x01#8 } .completed)

/-- 40_crc.md R109: CRC.FEED b, the command words it has and its whole effect, whichever engine the core has; and after
CRC.INIT and CRC.FEED of any bytes in order the accumulator holds their `crc8`. -/
def Obligations.CrcFeedFoldsBytes : Prop :=
  (∀ (w : Word) (b : Byte), decodeCommand w = .crcFeed b ↔ w = (b.setWidth 32 <<< 8) ||| 0x02#32)
    ∧ (∀ (b : Byte) (s : State), exec (.crcFeed b) s
      = .next (answered s { s.x with crc := crc8Byte s.x.crc b, code := 1#4, lastOp := 0x02#8 } .completed))
    ∧ ∀ (s : State) (bs : List Byte), s.resetLine = false →
        s.pending = .access (encode s.params.base .crcInit)
          :: bs.map (fun b => .access (encode s.params.base (.crcFeed b))) →
        ∃ t, run (bs.length + 1) s = .next t ∧ t.pending = [] ∧ t.x.crc = crc8 bs

/-! ### Frame constructor, comparison and read -/

/-- 41_frame_check.md R120: the verification frame, byte 0 first; and (R130 (a)) byte 0 is even, byte 2 odd, and they
differ only in bit 0. -/
def Obligations.FrameIsTheFiveBytes : Prop :=
  ∀ (a : BitVec 7) (r lo hi : Byte),
    frameBytes a r lo hi
        = [BitVec.ofNat 8 (2 * a.toNat), r, BitVec.ofNat 8 (2 * a.toNat + 1), lo, hi]
      ∧ (writeAddrByte a).toNat % 2 = 0 ∧ (readAddrByte a).toNat % 2 = 1
      ∧ writeAddrByte a ^^^ readAddrByte a = 0x01#8

/-- 41_frame_check.md R121: the raw word is little-endian. -/
def Obligations.RawWordIsLittleEndian : Prop :=
  ∀ lo hi : Byte, (raw16 lo hi).toNat = 256 * hi.toNat + lo.toNat

/-- 41_frame_check.md R127: FRAME r, the command words it has and its whole effect. -/
def Obligations.FrameBuildsFrameAndCrc : Prop :=
  (∀ (w : Word) (r : Byte), decodeCommand w = .frame r ↔ w = (r.setWidth 32 <<< 8) ||| 0x03#32)
    ∧ ∀ (r : Byte) (s : State), exec (.frame r) s
      = .next (answered s
          (if s.x.rxCnt = 3#3 then { framed s.params r s.x with code := 1#4, lastOp := 0x03#8 }
           else { emptied s.x with code := 3#4, lastOp := 0x03#8 })
          .completed)

/-- 41_frame_check.md R128: CHECK r, the command words it has and its whole effect. -/
def Obligations.CheckComparesPec : Prop :=
  (∀ (w : Word) (r : Byte), decodeCommand w = .check r ↔ w = (r.setWidth 32 <<< 8) ||| 0x04#32)
    ∧ ∀ (r : Byte) (s : State), exec (.check r) s
      = .next (answered s
          (if s.x.rxCnt = 3#3 then
            { framed s.params r s.x with
              code := if frameCrc s.params r s.x = s.x.rx2 then 1#4 else 2#4, lastOp := 0x04#8 }
           else { emptied s.x with code := 3#4, lastOp := 0x04#8 })
          .completed)

/-- 41_frame_check.md R129: READ r, the command words it has, and its whole effect, the checks in their order. -/
def Obligations.ReadValidatesThenConverts : Prop :=
  (∀ (w : Word) (r : Byte), decodeCommand w = .read r ↔ w = (r.setWidth 32 <<< 8) ||| 0x05#32)
    ∧ ∀ (r : Byte) (s : State), exec (.read r) s
      = .next (answered s
          (if ¬ TempReg r then { cleared (emptied s.x) with code := 4#4, lastOp := 0x05#8 }
           else if s.x.rxCnt ≠ 3#3 then { cleared (emptied s.x) with code := 3#4, lastOp := 0x05#8 }
           else if frameCrc s.params r s.x ≠ s.x.rx2 then
            { cleared (framed s.params r s.x) with code := 2#4, lastOp := 0x05#8 }
           else
            { converted (receivedRaw s.x) 1#1 (framed s.params r s.x) with code := 1#4, lastOp := 0x05#8 })
          .completed)

/-- 41_frame_check.md R126: FRAME, CHECK and READ empty the buffer on every outcome, so that a FRAME, a CHECK or a READ
of a temperature register right after one of them fails with LEN_ERR. -/
def Obligations.FrameCommandsConsumeTheBuffer : Prop :=
  ∀ (r : Byte) (s : State) (i : Instr), i = .frame r ∨ i = .check r ∨ i = .read r →
    ∃ t, exec i s = .next t ∧ t.x.rx0 = 0x00#8 ∧ t.x.rx1 = 0x00#8 ∧ t.x.rx2 = 0x00#8 ∧ t.x.rxCnt = 0#3
      ∧ ∀ (r' : Byte) (j : Instr), j = .frame r' ∨ j = .check r' ∨ j = .read r' ∧ TempReg r' →
          ∃ u, exec j t = .next u ∧ u.x.code = 3#4 ∧ u.x.crc = t.x.crc

/-- 60_exceptions.md R187: the one code a CMD write leaves is decided by the first check that fails, in the order
CMD_ERR, REG_ERR, LEN_ERR, PEC_ERR; SRST leaves NONE (10_state.md R33). -/
def Obligations.OutcomeCodePriority : Prop :=
  ∀ (w : Word) (s t : State), exec (decodeCommand w) s = .next t →
    (MatchesNoRow w → t.x.code = 5#4)
      ∧ (¬ MatchesNoRow w → w.setWidth 8 = 0x08#8 → t.x.code = 0#4)
      ∧ (¬ MatchesNoRow w → w.setWidth 8 ∈ [0x00#8, 0x01#8, 0x02#8, 0x06#8, 0x07#8] → t.x.code = 1#4)
      ∧ ∀ r : Byte,
        (decodeCommand w = .read r → ¬ TempReg r → t.x.code = 4#4)
          ∧ (decodeCommand w = .read r ∧ TempReg r ∨ decodeCommand w = .check r ∨ decodeCommand w = .frame r →
              s.x.rxCnt ≠ 3#3 → t.x.code = 3#4)
          ∧ (decodeCommand w = .read r ∧ TempReg r ∨ decodeCommand w = .check r →
              s.x.rxCnt = 3#3 → t.x.code = if frameCrc s.params r s.x = s.x.rx2 then 1#4 else 2#4)
          ∧ (decodeCommand w = .frame r → s.x.rxCnt = 3#3 → t.x.code = 1#4)

/-- A whole transaction (41_frame_check.md R129, R130 (c), (d)): from an empty buffer, three pushed bytes and READ of a
temperature register give the verified conversion exactly when the third byte is the frame's checksum. -/
def Obligations.ReadTransaction : Prop :=
  ∀ (s : State) (r lo hi pec : Byte), s.resetLine = false → s.x.rxCnt = 0#3 → TempReg r →
    s.pending = pushes s.params.base [lo.setWidth 32, hi.setWidth 32, pec.setWidth 32]
      ++ [.access (encode s.params.base (.read r))] →
    ∃ t, run 4 s = .next t ∧ t.pending = [] ∧ t.x.rxCnt = 0#3
      ∧ [t.x.fb0, t.x.fb1, t.x.fb2, t.x.fb3, t.x.fb4]
          = [writeAddr s.params, r, readAddr s.params, lo, hi]
      ∧ t.x.fpec = pec ∧ t.x.crc = crc8 [t.x.fb0, t.x.fb1, t.x.fb2, t.x.fb3, t.x.fb4]
      ∧ (crc8 [t.x.fb0, t.x.fb1, t.x.fb2, t.x.fb3, t.x.fb4, pec] = 0x00#8 →
          t.x.code = 1#4 ∧ t.x.tver = 1#1 ∧ t.x.raw = rawOf lo hi
            ∧ t.x.tcc.toInt = 2 * (256 * (hi.toNat : Int) + lo.toNat) - 27315 ∧ t.x.tf64 = convF64 (rawOf lo hi))
      ∧ (crc8 [t.x.fb0, t.x.fb1, t.x.fb2, t.x.fb3, t.x.fb4, pec] ≠ 0x00#8 →
          t.x.code = 2#4 ∧ t.x.tver = 0#1 ∧ t.x.raw = 0#16 ∧ t.x.tcc = 0#32 ∧ t.x.tf64 = 0#64)

/-- READ's results depend only on `P_DEVADDR`, the operand and the received bytes (90_conflicts.md C5): two cores that
agree on those get the same outcome, and the same conversion registers and empty buffer; if the length check is reached
and passed, also the same frame and checksum. -/
def Obligations.ReadDependsOnlyOnReceivedBytes : Prop :=
  ∀ (r : Byte) (s s' t t' : State),
    s.params.devAddr = s'.params.devAddr → s.x.rx0 = s'.x.rx0 → s.x.rx1 = s'.x.rx1 → s.x.rx2 = s'.x.rx2 →
    s.x.rxCnt = s'.x.rxCnt → exec (.read r) s = .next t → exec (.read r) s' = .next t' →
    t.x.code = t'.x.code ∧ t.x.tver = t'.x.tver ∧ t.x.lastOp = t'.x.lastOp ∧ t.x.raw = t'.x.raw
      ∧ t.x.tcc = t'.x.tcc ∧ t.x.tf64 = t'.x.tf64 ∧ t.x.rxCnt = t'.x.rxCnt
      ∧ (TempReg r → s.x.rxCnt = 3#3 → t.x = t'.x)

/-! ### Receive buffer -/

/-- 43_control.md R163: RXPUSH v, the access it is and its whole effect. -/
def Obligations.RxPushAppendsOneByte : Prop :=
  (∀ (base : Nat) (a : Access) (v : Word),
      decode base a = .instr (.rxPush v) ↔ a = .write (base + 0x10) 4 0xF#4 v)
    ∧ ∀ (v : Word) (s : State), exec (.rxPush v) s
      = .next (answered s
          (if s.x.rxCnt = 0#3 then { s.x with rx0 := v.setWidth 8, rxCnt := 1#3 }
           else if s.x.rxCnt = 1#3 then { s.x with rx1 := v.setWidth 8, rxCnt := 2#3 }
           else if s.x.rxCnt = 2#3 then { s.x with rx2 := v.setWidth 8, rxCnt := 3#3 }
           else { s.x with rxCnt := 4#3 })
          .completed)

/-- 20_memory.md R67: slot k receives the (k+1)-th byte written after the buffer was last emptied, and the count
saturates at 4, for any number of pushed words; nothing else of the core changes. -/
def Obligations.ReceiveBufferKeepsArrivalOrder : Prop :=
  ∀ (s : State) (vs : List Word), s.resetLine = false → s.x.rxCnt = 0#3 →
    s.x.rx0 = 0x00#8 → s.x.rx1 = 0x00#8 → s.x.rx2 = 0x00#8 → s.pending = pushes s.params.base vs →
    ∃ t, run vs.length s = .next t ∧ t.pending = []
      ∧ t.x = { s.x with
          rx0 := ((vs[0]?).map (·.setWidth 8)).getD 0x00#8
          rx1 := ((vs[1]?).map (·.setWidth 8)).getD 0x00#8
          rx2 := ((vs[2]?).map (·.setWidth 8)).getD 0x00#8
          rxCnt := BitVec.ofNat 3 (min vs.length 4) }

/-- 41_frame_check.md R123: any number of pushed bytes but three fails the length check, and the frame registers and the
accumulator keep their values (R124). -/
def Obligations.WrongByteCountFailsLengthCheck : Prop :=
  ∀ (s : State) (vs : List Word) (r : Byte) (i : Instr), s.resetLine = false → s.x.rxCnt = 0#3 →
    vs.length ≠ 3 → i = .frame r ∨ i = .check r ∨ (i = .read r ∧ TempReg r) →
    s.pending = pushes s.params.base vs ++ [.access (encode s.params.base i)] →
    ∃ t, run (vs.length + 1) s = .next t ∧ t.x.code = 3#4 ∧ t.x.crc = s.x.crc
      ∧ t.x.fb0 = s.x.fb0 ∧ t.x.fb1 = s.x.fb1 ∧ t.x.fb2 = s.x.fb2 ∧ t.x.fb3 = s.x.fb3 ∧ t.x.fb4 = s.x.fb4
      ∧ t.x.fpec = s.x.fpec ∧ t.x.rxCnt = 0#3

/-- 43_control.md R161: RX.CLEAR, its one command word and its whole effect. -/
def Obligations.RxClearEmptiesBuffer : Prop :=
  (∀ w : Word, decodeCommand w = .rxClear ↔ w = 0x00000007#32)
    ∧ ∀ s : State, exec .rxClear s
      = .next (answered s { emptied s.x with code := 1#4, lastOp := 0x07#8 } .completed)

/-! ### The converter -/

/-- 42_convert.md R140: TEMP_CC is the exact temperature in hundredths of a degree; and its range and form (R141). -/
def Obligations.CentiCelsiusIsExact : Prop :=
  ∀ raw : Half,
    (convCc raw : ℚ) / 100 = raw.toNat * (2 / 100 : ℚ) - 27315 / 100
      ∧ (BitVec.ofInt 32 (convCc raw)).toInt = convCc raw
      ∧ -27315 ≤ convCc raw ∧ convCc raw ≤ 103755 ∧ convCc raw % 2 = 1

/-- 42_convert.md R143: the two constants are the binary64 values nearest to 0.02 and 273.15, with the exact values the
rule gives. -/
def Obligations.ConverterConstantsAreNearest : Prop :=
  cScale = 0x3F947AE147AE147B#64 ∧ IsNearestEven (2 / 100) cScale
    ∧ valueOfBits cScale = 5764607523034235 / 2 ^ 58
    ∧ cOffset = 0x4071126666666666#64 ∧ IsNearestEven (27315 / 100) cOffset
    ∧ valueOfBits cOffset = 2402652809016115 / 2 ^ 43

/-- 42_convert.md R142: the product is rounded once to nearest even, then the difference is. -/
def Obligations.ConvF64RoundsEachStepToNearestEven : Prop :=
  ∀ raw : Half, ∃ p : Double,
    IsNearestEven (raw.toNat * valueOfBits cScale) p
      ∧ IsNearestEven (valueOfBits p - valueOfBits cOffset) (convF64 raw)

/-- 42_convert.md R144 (a) to (c): the result is a normal binary64 value, never zero; it differs from the exact
temperature by at most 2.73e-13; rounded to two decimals it is the exact temperature. -/
def Obligations.ConvF64IsAccurate : Prop :=
  ∀ raw : Half,
    (convF64 raw).extractLsb' 52 11 ≠ 0#11 ∧ (convF64 raw).extractLsb' 52 11 ≠ 0x7FF#11
      ∧ |valueOfBits (convF64 raw) - (convCc raw : ℚ) / 100| ≤ 273 / 10 ^ 15
      ∧ round (valueOfBits (convF64 raw) * 100) = convCc raw

/-- 42_convert.md R146: CONVERT h, the command words it has and its whole effect. -/
def Obligations.ConvertWritesUnverifiedConversion : Prop :=
  (∀ (w : Word) (h : Half), decodeCommand w = .convert h ↔ w = (h.setWidth 32 <<< 16) ||| 0x06#32)
    ∧ ∀ (h : Half) (s : State), exec (.convert h) s
      = .next (answered s { converted h 0#1 s.x with code := 1#4, lastOp := 0x06#8 } .completed)

/-- 10_state.md R34: TVER can be 1 after a step only if it was 1 and the conversion registers did not change, or the
step was a READ of a temperature register with a complete buffer whose PEC matched, and they hold its conversion. -/
def Obligations.OnlyVerifiedReadSetsTver : Prop :=
  ∀ s t : State, step s = .next t → t.x.tver = 1#1 →
    (s.x.tver = 1#1 ∧ t.x.raw = s.x.raw ∧ t.x.tcc = s.x.tcc ∧ t.x.tf64 = s.x.tf64)
      ∨ ∃ r rest, s.pending = .access (encode s.params.base (.read r)) :: rest ∧ TempReg r ∧ s.x.rxCnt = 3#3
          ∧ frameCrc s.params r s.x = s.x.rx2 ∧ t.x.raw = receivedRaw s.x
          ∧ t.x.tcc = BitVec.ofInt 32 (2 * ((receivedRaw s.x).toNat : Int) - 27315)
          ∧ t.x.tf64 = convF64 (receivedRaw s.x)

/-- 70_reset_and_hazards.md R212: the two halves of TEMP_F64 belong to the same conversion if no CMD write and no reset
lies between the two reads, whatever other accesses of the window do. -/
def Obligations.TempF64HalvesBelongTogether : Prop :=
  ∀ (s t : State) (mid : List HostEvent), s.resetLine = false →
    (∀ e ∈ mid, ∃ a, e = .access a ∧ ¬ IsWriteAt s.params.base 0x04 a) →
    s.pending = .access (encode s.params.base (.rd .tempF64Lo)) :: mid
      ++ [.access (encode s.params.base (.rd .tempF64Hi))] →
    run (mid.length + 2) s = .next t →
    ∃ lo hi : Word, t.replies[s.replies.length]? = some (.data lo) ∧ t.replies.getLast? = some (.data hi)
      ∧ 2 ^ 32 * hi.toNat + lo.toNat = s.x.tf64.toNat ∧ t.x.tf64 = s.x.tf64

/-! ### Control commands and register operations -/

/-- 43_control.md R160: NOP, its one command word and its whole effect. -/
def Obligations.NopReportsSuccess : Prop :=
  (∀ w : Word, decodeCommand w = .nop ↔ w = 0x00000000#32)
    ∧ ∀ s : State, exec .nop s = .next (answered s { s.x with code := 1#4, lastOp := 0x00#8 } .completed)

/-- 43_control.md R164: WR to any register but CMD and RXBYTE, the access it is; it changes nothing, whatever the
word. -/
def Obligations.WritesToReadOnlyRegistersAreIgnored : Prop :=
  ∀ (reg : Reg) (v : Word), reg ≠ .cmd → reg ≠ .rxByte →
    (∀ (base : Nat) (a : Access), decode base a = .instr (.wr reg v) ↔ a = .write (base + offsetInMap reg) 4 0xF#4 v)
      ∧ ∀ s : State, exec (.wr reg v) s = .next (answered s s.x .completed)

/-- 43_control.md R165: RD, the access it is, each register at its offset of 10_state.md R24; it answers the register's
value, its fields at the places 10_state.md R25 to R42 give them, and changes nothing. -/
def Obligations.ReadReturnsTheRegister : Prop :=
  (∀ (base : Nat) (a : Access) (reg : Reg),
      decode base a = .instr (.rd reg) ↔ a = .read (base + offsetInMap reg) 4)
    ∧ ∀ (reg : Reg) (s : State), exec (.rd reg) s
      = .next (answered s s.x (.data (match reg with
          | .id => 0x50454338#32
          | .cmd => 0#32
          | .status => BitVec.ofNat 32 (256 * s.x.lastOp.toNat + 16 * s.x.tver.toNat + s.x.code.toNat)
          | .devAddr => BitVec.ofNat 32 s.params.devAddr.toNat
          | .rxByte => 0#32
          | .rxBuf => BitVec.ofNat 32
              (2 ^ 24 * s.x.rxCnt.toNat + 2 ^ 16 * s.x.rx2.toNat + 2 ^ 8 * s.x.rx1.toNat + s.x.rx0.toNat)
          | .crc => BitVec.ofNat 32 s.x.crc.toNat
          | .frame0 => BitVec.ofNat 32
              (2 ^ 24 * s.x.fb3.toNat + 2 ^ 16 * s.x.fb2.toNat + 2 ^ 8 * s.x.fb1.toNat + s.x.fb0.toNat)
          | .frame1 => BitVec.ofNat 32 (2 ^ 8 * s.x.fpec.toNat + s.x.fb4.toNat)
          | .tempCc => s.x.tcc
          | .tempF64Lo => BitVec.ofNat 32 (s.x.tf64.toNat % 2 ^ 32)
          | .tempF64Hi => BitVec.ofNat 32 (s.x.tf64.toNat / 2 ^ 32)
          | .raw => BitVec.ofNat 32 s.x.raw.toNat
          | .reserved34 => 0#32
          | .reserved38 => 0#32
          | .reserved3C => 0#32)))

/-- 20_memory.md R69: only a legal write to CMD or RXBYTE changes the core's state; reads are idempotent; a repeated
RXBYTE write and a repeated CRC.FEED are not. -/
def Obligations.OnlyCmdAndRxByteWritesChangeState : Prop :=
  (∀ (s t : State) (a : Access) (rest : List HostEvent),
      s.pending = .access a :: rest → step s = .next t →
      ¬ IsWriteAt s.params.base 0x04 a → ¬ IsWriteAt s.params.base 0x10 a → t.x = s.x)
    ∧ (∀ (reg : Reg) (s t u : State), exec (.rd reg) s = .next t → exec (.rd reg) t = .next u →
        u.x = s.x ∧ ∃ v, u.replies = s.replies ++ [.data v, .data v])
    ∧ (∃ (v : Word) (s t u : State),
        exec (.rxPush v) s = .next t ∧ exec (.rxPush v) t = .next u ∧ s.x ≠ t.x ∧ u.x ≠ t.x)
    ∧ ∃ (b : Byte) (s t u : State),
        exec (.crcFeed b) s = .next t ∧ exec (.crcFeed b) t = .next u ∧ s.x.crc ≠ t.x.crc ∧ u.x.crc ≠ t.x.crc

/-- 20_memory.md R64: the byte the window shows at `P_BASE + off + k` is bits [8k+7 : 8k] of the register at `off`, the
registers at their offsets of 10_state.md R24. -/
def Obligations.WindowBytesAreLittleEndian : Prop :=
  ∀ (s : State) (reg : Reg) (k : Nat), k < 4 →
    ∃ b, windowByte s (s.params.base + offsetInMap reg + k) = some b
      ∧ b.toNat = (readValue s.params s.x reg).toNat / 2 ^ (8 * k) % 256

/-- 00_scope.md R8: a device address above 0x7F is refused, whatever the window address; R7: a window address that is
not a multiple of 64 is refused; all other parameters give a core just after reset that has exactly that address and
window. That both refusals have names, and that the device address is named when both are illegal, is log 21. -/
def Obligations.InstantiationRefusesWideAddress : Prop :=
  ∀ (devAddr base latency : Nat) (impl : CrcImpl),
    (0x7F < devAddr → instantiate devAddr base impl latency = .refused (.illegalDevAddr devAddr))
      ∧ (devAddr ≤ 0x7F → base % 64 ≠ 0 → instantiate devAddr base impl latency = .refused (.illegalBase base))
      ∧ (devAddr ≤ 0x7F → base % 64 = 0 →
          ∃ p : Params, instantiate devAddr base impl latency = .next (State.resetWith p)
            ∧ p.devAddr.toNat = devAddr ∧ p.base = base ∧ p.crcImpl = impl ∧ p.cmdLatency = latency)

/-! ### The whole machine -/

/-- Every step keeps the invariant: 10_state.md R20's receive-buffer invariant, the six outcome codes and who sets each
(R33), the conversion registers (R34, R38), the frame's address bytes, and what each outcome leaves recorded
(60_exceptions.md R181). -/
def Obligations.EveryStepKeepsInvariant : Prop := ∀ s t : State, MachineInv s → step s = .next t → MachineInv t

/-- The invariant holds of every instantiation right after reset. -/
def Obligations.ResetMeetsInvariant : Prop := ∀ p : Params, MachineInv (State.resetWith p)

/-- No step changes the parameters: P_DEVADDR is immutable (10_state.md R27). -/
def Obligations.ParametersNeverChange : Prop :=
  ∀ (n : Nat) (s t : State), run n s = .next t → t.params = s.params

/-- 70_reset_and_hazards.md R216, R217: the core can neither hang nor fault. With reset released, whatever accesses of
the window the host has pending, malformed or illegal ones included, all of them are answered, one answer each. -/
def Obligations.EveryAccessIsAnswered : Prop :=
  ∀ s : State, s.resetLine = false → (∀ e ∈ s.pending, IsWindowAccess s.params.base e) →
    ∃ t, run s.pending.length s = .next t ∧ t.pending = []
      ∧ t.replies.length = s.replies.length + s.pending.length ∧ s.replies <+: t.replies
end

