-- ==== Sys2Proof/Laws/State.lean ====
section
/-! SUPPORT. One lemma per field per update of the state, so that no proof unfolds a record update. -/

namespace Sys2Proof.Machine

/-! ### Status elements -/

@[simp] theorem Elements.setCode_crc (c : BitVec 4) (x : Elements) : (x.setCode c).crc = x.crc := rfl
@[simp] theorem Elements.setCode_rx0 (c : BitVec 4) (x : Elements) : (x.setCode c).rx0 = x.rx0 := rfl
@[simp] theorem Elements.setCode_rx1 (c : BitVec 4) (x : Elements) : (x.setCode c).rx1 = x.rx1 := rfl
@[simp] theorem Elements.setCode_rx2 (c : BitVec 4) (x : Elements) : (x.setCode c).rx2 = x.rx2 := rfl
@[simp] theorem Elements.setCode_rxCnt (c : BitVec 4) (x : Elements) : (x.setCode c).rxCnt = x.rxCnt := rfl
@[simp] theorem Elements.setCode_fb0 (c : BitVec 4) (x : Elements) : (x.setCode c).fb0 = x.fb0 := rfl
@[simp] theorem Elements.setCode_fb1 (c : BitVec 4) (x : Elements) : (x.setCode c).fb1 = x.fb1 := rfl
@[simp] theorem Elements.setCode_fb2 (c : BitVec 4) (x : Elements) : (x.setCode c).fb2 = x.fb2 := rfl
@[simp] theorem Elements.setCode_fb3 (c : BitVec 4) (x : Elements) : (x.setCode c).fb3 = x.fb3 := rfl
@[simp] theorem Elements.setCode_fb4 (c : BitVec 4) (x : Elements) : (x.setCode c).fb4 = x.fb4 := rfl
@[simp] theorem Elements.setCode_fpec (c : BitVec 4) (x : Elements) : (x.setCode c).fpec = x.fpec := rfl
@[simp] theorem Elements.setCode_raw (c : BitVec 4) (x : Elements) : (x.setCode c).raw = x.raw := rfl
@[simp] theorem Elements.setCode_tcc (c : BitVec 4) (x : Elements) : (x.setCode c).tcc = x.tcc := rfl
@[simp] theorem Elements.setCode_tf64 (c : BitVec 4) (x : Elements) : (x.setCode c).tf64 = x.tf64 := rfl
@[simp] theorem Elements.setCode_tver (c : BitVec 4) (x : Elements) : (x.setCode c).tver = x.tver := rfl
@[simp] theorem Elements.setCode_code (c : BitVec 4) (x : Elements) : (x.setCode c).code = c := rfl
@[simp] theorem Elements.setCode_lastOp (c : BitVec 4) (x : Elements) : (x.setCode c).lastOp = x.lastOp := rfl

@[simp] theorem Elements.setLastOp_crc (op : Byte) (x : Elements) : (x.setLastOp op).crc = x.crc := rfl
@[simp] theorem Elements.setLastOp_rx0 (op : Byte) (x : Elements) : (x.setLastOp op).rx0 = x.rx0 := rfl
@[simp] theorem Elements.setLastOp_rx1 (op : Byte) (x : Elements) : (x.setLastOp op).rx1 = x.rx1 := rfl
@[simp] theorem Elements.setLastOp_rx2 (op : Byte) (x : Elements) : (x.setLastOp op).rx2 = x.rx2 := rfl
@[simp] theorem Elements.setLastOp_rxCnt (op : Byte) (x : Elements) : (x.setLastOp op).rxCnt = x.rxCnt := rfl
@[simp] theorem Elements.setLastOp_fb0 (op : Byte) (x : Elements) : (x.setLastOp op).fb0 = x.fb0 := rfl
@[simp] theorem Elements.setLastOp_fb1 (op : Byte) (x : Elements) : (x.setLastOp op).fb1 = x.fb1 := rfl
@[simp] theorem Elements.setLastOp_fb2 (op : Byte) (x : Elements) : (x.setLastOp op).fb2 = x.fb2 := rfl
@[simp] theorem Elements.setLastOp_fb3 (op : Byte) (x : Elements) : (x.setLastOp op).fb3 = x.fb3 := rfl
@[simp] theorem Elements.setLastOp_fb4 (op : Byte) (x : Elements) : (x.setLastOp op).fb4 = x.fb4 := rfl
@[simp] theorem Elements.setLastOp_fpec (op : Byte) (x : Elements) : (x.setLastOp op).fpec = x.fpec := rfl
@[simp] theorem Elements.setLastOp_raw (op : Byte) (x : Elements) : (x.setLastOp op).raw = x.raw := rfl
@[simp] theorem Elements.setLastOp_tcc (op : Byte) (x : Elements) : (x.setLastOp op).tcc = x.tcc := rfl
@[simp] theorem Elements.setLastOp_tf64 (op : Byte) (x : Elements) : (x.setLastOp op).tf64 = x.tf64 := rfl
@[simp] theorem Elements.setLastOp_tver (op : Byte) (x : Elements) : (x.setLastOp op).tver = x.tver := rfl
@[simp] theorem Elements.setLastOp_code (op : Byte) (x : Elements) : (x.setLastOp op).code = x.code := rfl
@[simp] theorem Elements.setLastOp_lastOp (op : Byte) (x : Elements) : (x.setLastOp op).lastOp = op := rfl

/-! ### Accumulator, receive buffer, frame, conversion registers -/

@[simp] theorem Elements.setCrc_crc (c : Byte) (x : Elements) : (x.setCrc c).crc = c := rfl
@[simp] theorem Elements.setCrc_rx0 (c : Byte) (x : Elements) : (x.setCrc c).rx0 = x.rx0 := rfl
@[simp] theorem Elements.setCrc_rx1 (c : Byte) (x : Elements) : (x.setCrc c).rx1 = x.rx1 := rfl
@[simp] theorem Elements.setCrc_rx2 (c : Byte) (x : Elements) : (x.setCrc c).rx2 = x.rx2 := rfl
@[simp] theorem Elements.setCrc_rxCnt (c : Byte) (x : Elements) : (x.setCrc c).rxCnt = x.rxCnt := rfl
@[simp] theorem Elements.setCrc_fb0 (c : Byte) (x : Elements) : (x.setCrc c).fb0 = x.fb0 := rfl
@[simp] theorem Elements.setCrc_fb1 (c : Byte) (x : Elements) : (x.setCrc c).fb1 = x.fb1 := rfl
@[simp] theorem Elements.setCrc_fb2 (c : Byte) (x : Elements) : (x.setCrc c).fb2 = x.fb2 := rfl
@[simp] theorem Elements.setCrc_fb3 (c : Byte) (x : Elements) : (x.setCrc c).fb3 = x.fb3 := rfl
@[simp] theorem Elements.setCrc_fb4 (c : Byte) (x : Elements) : (x.setCrc c).fb4 = x.fb4 := rfl
@[simp] theorem Elements.setCrc_fpec (c : Byte) (x : Elements) : (x.setCrc c).fpec = x.fpec := rfl
@[simp] theorem Elements.setCrc_raw (c : Byte) (x : Elements) : (x.setCrc c).raw = x.raw := rfl
@[simp] theorem Elements.setCrc_tcc (c : Byte) (x : Elements) : (x.setCrc c).tcc = x.tcc := rfl
@[simp] theorem Elements.setCrc_tf64 (c : Byte) (x : Elements) : (x.setCrc c).tf64 = x.tf64 := rfl
@[simp] theorem Elements.setCrc_tver (c : Byte) (x : Elements) : (x.setCrc c).tver = x.tver := rfl
@[simp] theorem Elements.setCrc_code (c : Byte) (x : Elements) : (x.setCrc c).code = x.code := rfl
@[simp] theorem Elements.setCrc_lastOp (c : Byte) (x : Elements) : (x.setCrc c).lastOp = x.lastOp := rfl

@[simp] theorem Elements.consume_crc (x : Elements) : (x.consume).crc = x.crc := rfl
@[simp] theorem Elements.consume_rx0 (x : Elements) : (x.consume).rx0 = 0x00#8 := rfl
@[simp] theorem Elements.consume_rx1 (x : Elements) : (x.consume).rx1 = 0x00#8 := rfl
@[simp] theorem Elements.consume_rx2 (x : Elements) : (x.consume).rx2 = 0x00#8 := rfl
@[simp] theorem Elements.consume_rxCnt (x : Elements) : (x.consume).rxCnt = 0#3 := rfl
@[simp] theorem Elements.consume_fb0 (x : Elements) : (x.consume).fb0 = x.fb0 := rfl
@[simp] theorem Elements.consume_fb1 (x : Elements) : (x.consume).fb1 = x.fb1 := rfl
@[simp] theorem Elements.consume_fb2 (x : Elements) : (x.consume).fb2 = x.fb2 := rfl
@[simp] theorem Elements.consume_fb3 (x : Elements) : (x.consume).fb3 = x.fb3 := rfl
@[simp] theorem Elements.consume_fb4 (x : Elements) : (x.consume).fb4 = x.fb4 := rfl
@[simp] theorem Elements.consume_fpec (x : Elements) : (x.consume).fpec = x.fpec := rfl
@[simp] theorem Elements.consume_raw (x : Elements) : (x.consume).raw = x.raw := rfl
@[simp] theorem Elements.consume_tcc (x : Elements) : (x.consume).tcc = x.tcc := rfl
@[simp] theorem Elements.consume_tf64 (x : Elements) : (x.consume).tf64 = x.tf64 := rfl
@[simp] theorem Elements.consume_tver (x : Elements) : (x.consume).tver = x.tver := rfl
@[simp] theorem Elements.consume_code (x : Elements) : (x.consume).code = x.code := rfl
@[simp] theorem Elements.consume_lastOp (x : Elements) : (x.consume).lastOp = x.lastOp := rfl

@[simp] theorem Elements.recordFrame_crc (a : BitVec 7) (r : Byte) (x : Elements) :
    (x.recordFrame a r).crc = x.crc := rfl
@[simp] theorem Elements.recordFrame_rx0 (a : BitVec 7) (r : Byte) (x : Elements) :
    (x.recordFrame a r).rx0 = x.rx0 := rfl
@[simp] theorem Elements.recordFrame_rx1 (a : BitVec 7) (r : Byte) (x : Elements) :
    (x.recordFrame a r).rx1 = x.rx1 := rfl
@[simp] theorem Elements.recordFrame_rx2 (a : BitVec 7) (r : Byte) (x : Elements) :
    (x.recordFrame a r).rx2 = x.rx2 := rfl
@[simp] theorem Elements.recordFrame_rxCnt (a : BitVec 7) (r : Byte) (x : Elements) :
    (x.recordFrame a r).rxCnt = x.rxCnt := rfl
@[simp] theorem Elements.recordFrame_fb0 (a : BitVec 7) (r : Byte) (x : Elements) :
    (x.recordFrame a r).fb0 = writeAddrByte a := rfl
@[simp] theorem Elements.recordFrame_fb1 (a : BitVec 7) (r : Byte) (x : Elements) : (x.recordFrame a r).fb1 = r := rfl
@[simp] theorem Elements.recordFrame_fb2 (a : BitVec 7) (r : Byte) (x : Elements) :
    (x.recordFrame a r).fb2 = readAddrByte a := rfl
@[simp] theorem Elements.recordFrame_fb3 (a : BitVec 7) (r : Byte) (x : Elements) :
    (x.recordFrame a r).fb3 = x.rx0 := rfl
@[simp] theorem Elements.recordFrame_fb4 (a : BitVec 7) (r : Byte) (x : Elements) :
    (x.recordFrame a r).fb4 = x.rx1 := rfl
@[simp] theorem Elements.recordFrame_fpec (a : BitVec 7) (r : Byte) (x : Elements) :
    (x.recordFrame a r).fpec = x.rx2 := rfl
@[simp] theorem Elements.recordFrame_raw (a : BitVec 7) (r : Byte) (x : Elements) :
    (x.recordFrame a r).raw = x.raw := rfl
@[simp] theorem Elements.recordFrame_tcc (a : BitVec 7) (r : Byte) (x : Elements) :
    (x.recordFrame a r).tcc = x.tcc := rfl
@[simp] theorem Elements.recordFrame_tf64 (a : BitVec 7) (r : Byte) (x : Elements) :
    (x.recordFrame a r).tf64 = x.tf64 := rfl
@[simp] theorem Elements.recordFrame_tver (a : BitVec 7) (r : Byte) (x : Elements) :
    (x.recordFrame a r).tver = x.tver := rfl
@[simp] theorem Elements.recordFrame_code (a : BitVec 7) (r : Byte) (x : Elements) :
    (x.recordFrame a r).code = x.code := rfl
@[simp] theorem Elements.recordFrame_lastOp (a : BitVec 7) (r : Byte) (x : Elements) :
    (x.recordFrame a r).lastOp = x.lastOp := rfl

@[simp] theorem Elements.convWrite_crc (raw : Half) (v : BitVec 1) (x : Elements) :
    (x.convWrite raw v).crc = x.crc := rfl
@[simp] theorem Elements.convWrite_rx0 (raw : Half) (v : BitVec 1) (x : Elements) :
    (x.convWrite raw v).rx0 = x.rx0 := rfl
@[simp] theorem Elements.convWrite_rx1 (raw : Half) (v : BitVec 1) (x : Elements) :
    (x.convWrite raw v).rx1 = x.rx1 := rfl
@[simp] theorem Elements.convWrite_rx2 (raw : Half) (v : BitVec 1) (x : Elements) :
    (x.convWrite raw v).rx2 = x.rx2 := rfl
@[simp] theorem Elements.convWrite_rxCnt (raw : Half) (v : BitVec 1) (x : Elements) :
    (x.convWrite raw v).rxCnt = x.rxCnt := rfl
@[simp] theorem Elements.convWrite_fb0 (raw : Half) (v : BitVec 1) (x : Elements) :
    (x.convWrite raw v).fb0 = x.fb0 := rfl
@[simp] theorem Elements.convWrite_fb1 (raw : Half) (v : BitVec 1) (x : Elements) :
    (x.convWrite raw v).fb1 = x.fb1 := rfl
@[simp] theorem Elements.convWrite_fb2 (raw : Half) (v : BitVec 1) (x : Elements) :
    (x.convWrite raw v).fb2 = x.fb2 := rfl
@[simp] theorem Elements.convWrite_fb3 (raw : Half) (v : BitVec 1) (x : Elements) :
    (x.convWrite raw v).fb3 = x.fb3 := rfl
@[simp] theorem Elements.convWrite_fb4 (raw : Half) (v : BitVec 1) (x : Elements) :
    (x.convWrite raw v).fb4 = x.fb4 := rfl
@[simp] theorem Elements.convWrite_fpec (raw : Half) (v : BitVec 1) (x : Elements) :
    (x.convWrite raw v).fpec = x.fpec := rfl
@[simp] theorem Elements.convWrite_raw (raw : Half) (v : BitVec 1) (x : Elements) : (x.convWrite raw v).raw = raw := rfl
@[simp] theorem Elements.convWrite_tcc (raw : Half) (v : BitVec 1) (x : Elements) :
    (x.convWrite raw v).tcc = BitVec.ofInt 32 (convCc raw) := rfl
@[simp] theorem Elements.convWrite_tf64 (raw : Half) (v : BitVec 1) (x : Elements) :
    (x.convWrite raw v).tf64 = convF64 raw := rfl
@[simp] theorem Elements.convWrite_tver (raw : Half) (v : BitVec 1) (x : Elements) : (x.convWrite raw v).tver = v := rfl
@[simp] theorem Elements.convWrite_code (raw : Half) (v : BitVec 1) (x : Elements) :
    (x.convWrite raw v).code = x.code := rfl
@[simp] theorem Elements.convWrite_lastOp (raw : Half) (v : BitVec 1) (x : Elements) :
    (x.convWrite raw v).lastOp = x.lastOp := rfl

@[simp] theorem Elements.convClear_crc (x : Elements) : (x.convClear).crc = x.crc := rfl
@[simp] theorem Elements.convClear_rx0 (x : Elements) : (x.convClear).rx0 = x.rx0 := rfl
@[simp] theorem Elements.convClear_rx1 (x : Elements) : (x.convClear).rx1 = x.rx1 := rfl
@[simp] theorem Elements.convClear_rx2 (x : Elements) : (x.convClear).rx2 = x.rx2 := rfl
@[simp] theorem Elements.convClear_rxCnt (x : Elements) : (x.convClear).rxCnt = x.rxCnt := rfl
@[simp] theorem Elements.convClear_fb0 (x : Elements) : (x.convClear).fb0 = x.fb0 := rfl
@[simp] theorem Elements.convClear_fb1 (x : Elements) : (x.convClear).fb1 = x.fb1 := rfl
@[simp] theorem Elements.convClear_fb2 (x : Elements) : (x.convClear).fb2 = x.fb2 := rfl
@[simp] theorem Elements.convClear_fb3 (x : Elements) : (x.convClear).fb3 = x.fb3 := rfl
@[simp] theorem Elements.convClear_fb4 (x : Elements) : (x.convClear).fb4 = x.fb4 := rfl
@[simp] theorem Elements.convClear_fpec (x : Elements) : (x.convClear).fpec = x.fpec := rfl
@[simp] theorem Elements.convClear_raw (x : Elements) : (x.convClear).raw = 0#16 := rfl
@[simp] theorem Elements.convClear_tcc (x : Elements) : (x.convClear).tcc = 0#32 := rfl
@[simp] theorem Elements.convClear_tf64 (x : Elements) : (x.convClear).tf64 = 0#64 := rfl
@[simp] theorem Elements.convClear_tver (x : Elements) : (x.convClear).tver = 0#1 := rfl
@[simp] theorem Elements.convClear_code (x : Elements) : (x.convClear).code = x.code := rfl
@[simp] theorem Elements.convClear_lastOp (x : Elements) : (x.convClear).lastOp = x.lastOp := rfl

/-! ### Reset -/

@[simp] theorem Elements.reset_crc : Elements.reset.crc = 0#8 := rfl
@[simp] theorem Elements.reset_rx0 : Elements.reset.rx0 = 0#8 := rfl
@[simp] theorem Elements.reset_rx1 : Elements.reset.rx1 = 0#8 := rfl
@[simp] theorem Elements.reset_rx2 : Elements.reset.rx2 = 0#8 := rfl
@[simp] theorem Elements.reset_rxCnt : Elements.reset.rxCnt = 0#3 := rfl
@[simp] theorem Elements.reset_fb0 : Elements.reset.fb0 = 0#8 := rfl
@[simp] theorem Elements.reset_fb1 : Elements.reset.fb1 = 0#8 := rfl
@[simp] theorem Elements.reset_fb2 : Elements.reset.fb2 = 0#8 := rfl
@[simp] theorem Elements.reset_fb3 : Elements.reset.fb3 = 0#8 := rfl
@[simp] theorem Elements.reset_fb4 : Elements.reset.fb4 = 0#8 := rfl
@[simp] theorem Elements.reset_fpec : Elements.reset.fpec = 0#8 := rfl
@[simp] theorem Elements.reset_raw : Elements.reset.raw = 0#16 := rfl
@[simp] theorem Elements.reset_tcc : Elements.reset.tcc = 0#32 := rfl
@[simp] theorem Elements.reset_tf64 : Elements.reset.tf64 = 0#64 := rfl
@[simp] theorem Elements.reset_tver : Elements.reset.tver = 0#1 := rfl
@[simp] theorem Elements.reset_code : Elements.reset.code = 0#4 := rfl
@[simp] theorem Elements.reset_lastOp : Elements.reset.lastOp = 0#8 := rfl

@[simp] theorem State.resetWith_params (p : Params) : (State.resetWith p).params = p := rfl
@[simp] theorem State.resetWith_x (p : Params) : (State.resetWith p).x = Elements.reset := rfl
@[simp] theorem State.resetWith_resetLine (p : Params) : (State.resetWith p).resetLine = false := rfl
@[simp] theorem State.resetWith_pending (p : Params) : (State.resetWith p).pending = [] := rfl
@[simp] theorem State.resetWith_replies (p : Params) : (State.resetWith p).replies = [] := rfl

/-! ### The host's side -/

@[simp] theorem State.answer_params (r : Reply) (s : State) : (s.answer r).params = s.params := rfl
@[simp] theorem State.answer_x (r : Reply) (s : State) : (s.answer r).x = s.x := rfl
@[simp] theorem State.answer_resetLine (r : Reply) (s : State) : (s.answer r).resetLine = s.resetLine := rfl
@[simp] theorem State.answer_pending (r : Reply) (s : State) : (s.answer r).pending = s.pending := rfl
@[simp] theorem State.answer_replies (r : Reply) (s : State) : (s.answer r).replies = s.replies ++ [r] := rfl

@[simp] theorem State.runCommand_params (op : Byte) (body : Elements → Elements) (s : State) :
    (s.runCommand op body).params = s.params := rfl
@[simp] theorem State.runCommand_x (op : Byte) (body : Elements → Elements) (s : State) :
    (s.runCommand op body).x = body (s.x.setLastOp op) := rfl
@[simp] theorem State.runCommand_resetLine (op : Byte) (body : Elements → Elements) (s : State) :
    (s.runCommand op body).resetLine = s.resetLine := rfl
@[simp] theorem State.runCommand_pending (op : Byte) (body : Elements → Elements) (s : State) :
    (s.runCommand op body).pending = s.pending := rfl
@[simp] theorem State.runCommand_replies (op : Byte) (body : Elements → Elements) (s : State) :
    (s.runCommand op body).replies = s.replies ++ [.completed] := rfl

@[simp] theorem State.raiseBusError_params (addr : Nat) (s : State) : (s.raiseBusError addr).params = s.params := rfl
@[simp] theorem State.raiseBusError_x (addr : Nat) (s : State) : (s.raiseBusError addr).x = s.x := rfl
@[simp] theorem State.raiseBusError_resetLine (addr : Nat) (s : State) :
    (s.raiseBusError addr).resetLine = s.resetLine := rfl
@[simp] theorem State.raiseBusError_pending (addr : Nat) (s : State) : (s.raiseBusError addr).pending = s.pending := rfl
@[simp] theorem State.raiseBusError_replies (addr : Nat) (s : State) :
    (s.raiseBusError addr).replies = s.replies ++ [.busError addr] := rfl

@[simp] theorem State.resetElements_params (s : State) : (s.resetElements).params = s.params := rfl
@[simp] theorem State.resetElements_x (s : State) : (s.resetElements).x = Elements.reset := rfl
@[simp] theorem State.resetElements_resetLine (s : State) : (s.resetElements).resetLine = s.resetLine := rfl
@[simp] theorem State.resetElements_pending (s : State) : (s.resetElements).pending = s.pending := rfl
@[simp] theorem State.resetElements_replies (s : State) : (s.resetElements).replies = s.replies := rfl

@[simp] theorem State.placeAccess_params (a : Access) (s : State) : (s.placeAccess a).params = s.params := rfl
@[simp] theorem State.placeAccess_x (a : Access) (s : State) : (s.placeAccess a).x = s.x := rfl
@[simp] theorem State.placeAccess_resetLine (a : Access) (s : State) : (s.placeAccess a).resetLine = false := rfl
@[simp] theorem State.placeAccess_pending (a : Access) (s : State) :
    (s.placeAccess a).pending = .access a :: s.pending := rfl
@[simp] theorem State.placeAccess_replies (a : Access) (s : State) : (s.placeAccess a).replies = s.replies := rfl

@[simp] theorem assertReset_params (s : State) : (assertReset s).params = s.params := rfl
@[simp] theorem assertReset_x (s : State) : (assertReset s).x = s.x := rfl
@[simp] theorem assertReset_resetLine (s : State) : (assertReset s).resetLine = true := rfl
@[simp] theorem assertReset_pending (s : State) : (assertReset s).pending = s.pending := rfl
@[simp] theorem assertReset_replies (s : State) : (assertReset s).replies = s.replies := rfl

@[simp] theorem State.loadProgram_params (ts : List Triple) (s : State) : (s.loadProgram ts).params = s.params := rfl
@[simp] theorem State.loadProgram_x (ts : List Triple) (s : State) : (s.loadProgram ts).x = s.x := rfl
@[simp] theorem State.loadProgram_resetLine (ts : List Triple) (s : State) :
    (s.loadProgram ts).resetLine = s.resetLine := rfl
@[simp] theorem State.loadProgram_pending (ts : List Triple) (s : State) :
    (s.loadProgram ts).pending = s.pending ++ programEvents s.params.base ts := rfl
@[simp] theorem State.loadProgram_replies (ts : List Triple) (s : State) : (s.loadProgram ts).replies = s.replies := rfl

end Sys2Proof.Machine
end

