-- ==== Sys2Proof/Laws/Ops.lean ====
section
/-! SUPPORT. What each shared operation can do, said once. -/

namespace Sys2Proof.Machine

/-! ### Receive buffer -/

theorem Elements.push_onto_empty (b : Byte) {x : Elements} (h : x.rxCnt = 0#3) :
    x.push b = { x with rx0 := b, rxCnt := 1#3 } := by simp [Elements.push, h]

theorem Elements.push_onto_one (b : Byte) {x : Elements} (h : x.rxCnt = 1#3) :
    x.push b = { x with rx1 := b, rxCnt := 2#3 } := by simp [Elements.push, h]

theorem Elements.push_onto_two (b : Byte) {x : Elements} (h : x.rxCnt = 2#3) :
    x.push b = { x with rx2 := b, rxCnt := 3#3 } := by simp [Elements.push, h]

theorem Elements.push_overflow (b : Byte) {x : Elements} (h0 : x.rxCnt ≠ 0#3) (h1 : x.rxCnt ≠ 1#3) (h2 : x.rxCnt ≠ 2#3) :
    x.push b = { x with rxCnt := 4#3 } := by simp [Elements.push, h0, h1, h2]

/-- A push changes a slot and the count, nothing else. -/
theorem Elements.push_cases (b : Byte) (x : Elements) :
    (x.rxCnt = 0#3 ∧ x.push b = { x with rx0 := b, rxCnt := 1#3 })
      ∨ (x.rxCnt = 1#3 ∧ x.push b = { x with rx1 := b, rxCnt := 2#3 })
      ∨ (x.rxCnt = 2#3 ∧ x.push b = { x with rx2 := b, rxCnt := 3#3 })
      ∨ (x.rxCnt ≠ 0#3 ∧ x.rxCnt ≠ 1#3 ∧ x.rxCnt ≠ 2#3 ∧ x.push b = { x with rxCnt := 4#3 }) := by
  by_cases h0 : x.rxCnt = 0#3
  · exact .inl ⟨h0, x.push_onto_empty b h0⟩
  by_cases h1 : x.rxCnt = 1#3
  · exact .inr (.inl ⟨h1, x.push_onto_one b h1⟩)
  by_cases h2 : x.rxCnt = 2#3
  · exact .inr (.inr (.inl ⟨h2, x.push_onto_two b h2⟩))
  · exact .inr (.inr (.inr ⟨h0, h1, h2, x.push_overflow b h0 h1 h2⟩))

/-! ### Frame path -/

theorem framePath_of_complete (p : Params) (r : Byte) {x : Elements} (h : x.rxCnt = 3#3) :
    framePath p r x =
      (((x.recordFrame p.devAddr r).setCrc (crcEngineList p.crcImpl (frameBytes p.devAddr r x.rx0 x.rx1))).consume,
        .ok (raw16 x.rx0 x.rx1) x.rx2) := by simp [framePath, h]

theorem framePath_of_wrong_length (p : Params) (r : Byte) {x : Elements} (h : x.rxCnt ≠ 3#3) :
    framePath p r x = (x.consume, .len) := by simp [framePath, h]

/-- The frame path empties the receive buffer on both outcomes (41_frame_check.md R126). -/
theorem framePath_empties (p : Params) (r : Byte) (x : Elements) : (framePath p r x).1.rxCnt = 0#3 := by
  by_cases h : x.rxCnt = 3#3
  · rw [framePath_of_complete p r h, Elements.consume_rxCnt]
  · rw [framePath_of_wrong_length p r h, Elements.consume_rxCnt]

theorem frameBody_of_complete (p : Params) (r : Byte) {x : Elements} (h : x.rxCnt = 3#3) :
    frameBody p r x =
      (((x.recordFrame p.devAddr r).setCrc
        (crcEngineList p.crcImpl (frameBytes p.devAddr r x.rx0 x.rx1))).consume).setCode codeOk := by
  simp [frameBody, framePath_of_complete p r h]

theorem frameBody_of_wrong_length (p : Params) (r : Byte) {x : Elements} (h : x.rxCnt ≠ 3#3) :
    frameBody p r x = x.consume.setCode codeLenErr := by simp [frameBody, framePath_of_wrong_length p r h]

theorem checkBody_of_complete (p : Params) (r : Byte) {x : Elements} (h : x.rxCnt = 3#3) :
    checkBody p r x =
      (((x.recordFrame p.devAddr r).setCrc
        (crcEngineList p.crcImpl (frameBytes p.devAddr r x.rx0 x.rx1))).consume).setCode
        (if crcEngineList p.crcImpl (frameBytes p.devAddr r x.rx0 x.rx1) = x.rx2 then codeOk else codePecErr) := by
  simp only [checkBody, framePath_of_complete p r h, Elements.consume_crc, Elements.setCrc_crc]
  by_cases hp : crcEngineList p.crcImpl (frameBytes p.devAddr r x.rx0 x.rx1) = x.rx2 <;> simp [hp]

theorem checkBody_of_wrong_length (p : Params) (r : Byte) {x : Elements} (h : x.rxCnt ≠ 3#3) :
    checkBody p r x = x.consume.setCode codeLenErr := by simp [checkBody, framePath_of_wrong_length p r h]

theorem readBody_of_other_register (p : Params) {r : Byte} (hr : isTempReg r = false) (x : Elements) :
    readBody p r x = x.consume.convClear.setCode codeRegErr := by simp [readBody, hr]

theorem readBody_of_wrong_length (p : Params) {r : Byte} (hr : isTempReg r = true) {x : Elements}
    (h : x.rxCnt ≠ 3#3) : readBody p r x = x.consume.convClear.setCode codeLenErr := by
  simp [readBody, hr, framePath_of_wrong_length p r h]

theorem readBody_of_match (p : Params) {r : Byte} (hr : isTempReg r = true) {x : Elements} (h : x.rxCnt = 3#3)
    (hp : crcEngineList p.crcImpl (frameBytes p.devAddr r x.rx0 x.rx1) = x.rx2) :
    readBody p r x =
      ((((x.recordFrame p.devAddr r).setCrc x.rx2).consume).convWrite (raw16 x.rx0 x.rx1) 1#1).setCode codeOk := by
  simp [readBody, hr, framePath_of_complete p r h, hp]

theorem readBody_of_mismatch (p : Params) {r : Byte} (hr : isTempReg r = true) {x : Elements} (h : x.rxCnt = 3#3)
    (hp : crcEngineList p.crcImpl (frameBytes p.devAddr r x.rx0 x.rx1) ≠ x.rx2) :
    readBody p r x =
      (((x.recordFrame p.devAddr r).setCrc
        (crcEngineList p.crcImpl (frameBytes p.devAddr r x.rx0 x.rx1))).consume).convClear.setCode codePecErr := by
  simp [readBody, hr, framePath_of_complete p r h, hp]

/-! ### The host's queue -/

@[simp] theorem nextEvent_of_nil {s : State} (h : s.pending = []) : nextEvent s = none := by simp [nextEvent, h]

@[simp] theorem nextEvent_of_cons {s : State} {e : HostEvent} {rest : List HostEvent} (h : s.pending = e :: rest) :
    nextEvent s = some (e, { s with pending := rest }) := by simp [nextEvent, h]

/-! ### The reset input -/

theorem releaseReset_of_asserted {s : State} (h : s.resetLine = true) :
    releaseReset s = { s with x := Elements.reset, resetLine := false } := by simp [releaseReset, h, State.resetElements]

theorem releaseReset_of_released {s : State} (h : s.resetLine = false) : releaseReset s = s := by
  simp [releaseReset, h]

end Sys2Proof.Machine
end

