-- ==== Sys2Proof/Laws/Access.lean ====
section
/-! SUPPORT. The decoder on accesses, and what one step can do. -/

namespace Sys2Proof

@[simp] theorem Reg.atOffset_offset (r : Reg) : Reg.atOffset r.offset.toNat = some r := by cases r <;> rfl

@[simp] theorem Reg.offset_mod_four (r : Reg) : r.offset.toNat % 4 = 0 := by cases r <;> rfl

theorem Reg.offset_lt (r : Reg) : r.offset.toNat < 64 := r.offset.isLt

/-- Only the sixteen multiples of 4 below 0x40 are offsets of registers. -/
theorem Reg.offset_of_atOffset {off : Nat} {r : Reg} (h : Reg.atOffset off = some r) : r.offset.toNat = off := by
  unfold Reg.atOffset at h
  split at h <;> first | (cases h; rfl) | exact absurd h (by simp)

/-- Every aligned offset of the window has a register (10_state.md R24). -/
theorem Reg.exists_atOffset {off : Nat} (h : off < 64) (h4 : off % 4 = 0) : ∃ r, Reg.atOffset off = some r := by
  obtain ⟨k, rfl⟩ : ∃ k, off = 4 * k := ⟨off / 4, by omega⟩
  have hk : k < 16 := by omega
  interval_cases k <;> exact ⟨_, rfl⟩

@[simp] theorem Access.addr_read (addr n : Nat) : (Access.read addr n).addr = addr := rfl

@[simp] theorem Access.addr_write (addr n : Nat) (be : BitVec 4) (v : Word) : (Access.write addr n be v).addr = addr :=
  rfl

/-- The 64-byte window (20_memory.md R60). -/
theorem inWindow_iff (base : Nat) (a : Access) : inWindow base a = true ↔ base ≤ a.addr ∧ a.addr < base + 64 := by
  simp [inWindow]

/-- A legal read: 32 bits and aligned (20_memory.md R61, R62). -/
theorem legalAccess_read_iff (base addr n : Nat) :
    legalAccess base (.read addr n) = true ↔ n = 4 ∧ (addr - base) % 4 = 0 := by simp [legalAccess]

/-- A legal write: 32 bits, aligned, all byte enables (20_memory.md R61 to R63). -/
theorem legalAccess_write_iff (base addr n : Nat) (be : BitVec 4) (v : Word) :
    legalAccess base (.write addr n be v) = true ↔ (n = 4 ∧ (addr - base) % 4 = 0) ∧ be = 0xF#4 := by
  simp [legalAccess]

/-- The access of a register's triple is in the window and legal. -/
theorem Triple.access_rd_ok (base : Nat) (r : Reg) :
    inWindow base ((Triple.rd r.offset).access base) = true
      ∧ legalAccess base ((Triple.rd r.offset).access base) = true := by
  have := r.offset_lt
  simp [Triple.access, inWindow, legalAccess, Access.addr, this]

theorem Triple.access_wr_ok (base : Nat) (r : Reg) (v : Word) :
    inWindow base ((Triple.wr r.offset v).access base) = true
      ∧ legalAccess base ((Triple.wr r.offset v).access base) = true := by
  have := r.offset_lt
  simp [Triple.access, inWindow, legalAccess, Access.addr, this]

theorem decode_read_access (base : Nat) (r : Reg) :
    decode base ((Triple.rd r.offset).access base) = .instr (.rd r) := by
  obtain ⟨hw, hl⟩ := Triple.access_rd_ok base r
  simp only [decode, hw, hl, Bool.not_true, Bool.false_eq_true, if_false]
  simp [Triple.access, Access.addr]

theorem decode_write_access (base : Nat) (r : Reg) (v : Word) :
    decode base ((Triple.wr r.offset v).access base) = .instr (decodeWrite r v) := by
  obtain ⟨hw, hl⟩ := Triple.access_wr_ok base r v
  simp only [decode, hw, hl, Bool.not_true, Bool.false_eq_true, if_false]
  simp [Triple.access, Access.addr]

theorem decode_outside {base : Nat} {a : Access} (h : inWindow base a = false) : decode base a = .outside a.addr := by
  simp [decode, h]

theorem decode_malformed {base : Nat} {a : Access} (hw : inWindow base a = true) (h : legalAccess base a = false) :
    decode base a = .busError a.addr := by simp [decode, hw, h]

/-- A legal access in the window is a read or a write of one register, and never a BusError. -/
theorem decode_legal {base : Nat} {a : Access} (hw : inWindow base a = true) (hl : legalAccess base a = true) :
    (∃ r : Reg, a = (Triple.rd r.offset).access base) ∨ ∃ (r : Reg) (v : Word), a = (Triple.wr r.offset v).access base := by
  cases a with
  | read addr n =>
    rw [inWindow_iff, Access.addr_read] at hw
    rw [legalAccess_read_iff] at hl
    obtain ⟨r, hr⟩ := Reg.exists_atOffset (off := addr - base) (by omega) hl.2
    refine .inl ⟨r, ?_⟩
    rw [Triple.access, Reg.offset_of_atOffset hr, hl.1, Nat.add_sub_cancel' hw.1]
  | write addr n be v =>
    rw [inWindow_iff, Access.addr_write] at hw
    rw [legalAccess_write_iff] at hl
    obtain ⟨r, hr⟩ := Reg.exists_atOffset (off := addr - base) (by omega) hl.1.2
    refine .inr ⟨r, v, ?_⟩
    rw [Triple.access, Reg.offset_of_atOffset hr, hl.1.1, hl.2, Nat.add_sub_cancel' hw.1]

namespace Machine

/-! ### One access, one event, one step -/

theorem hostAccess_of_instr {a : Access} {s : State} {i : Instr} (h : decode s.params.base a = .instr i) :
    hostAccess a s = exec i s := by rw [hostAccess, h]

theorem hostAccess_of_busError {a : Access} {s : State} {addr : Nat} (h : decode s.params.base a = .busError addr) :
    hostAccess a s = .next (s.raiseBusError addr) := by rw [hostAccess, h]

theorem hostAccess_of_outside {a : Access} {s : State} {addr : Nat} (h : decode s.params.base a = .outside addr) :
    hostAccess a s = .fault (.outsideWindow addr) := by rw [hostAccess, h]

theorem step_of_nil {s : State} (h : s.pending = []) : step s = .next s := by rw [step, nextEvent_of_nil h]

theorem step_of_cons {s : State} {e : HostEvent} {rest : List HostEvent} (h : s.pending = e :: rest) :
    step s = hostEvent e { s with pending := rest } := by rw [step, nextEvent_of_cons h]

/-- With reset released, the step of a pending access is that access. -/
theorem step_of_access {s : State} {a : Access} {rest : List HostEvent} (h : s.pending = .access a :: rest)
    (hr : s.resetLine = false) : step s = hostAccess a { s with pending := rest } := by
  rw [step_of_cons h]
  exact if_neg (by simp [hr])

/-- What one step can do when it answers a next state: wait, change the reset input, answer BusError, or run the decoded
instruction. -/
theorem step_next_cases {s t : State} (h : step s = .next t) :
    (s.pending = [] ∧ t = s)
      ∨ (∃ rest, s.pending = .assertReset :: rest ∧ t = { s with pending := rest, resetLine := true })
      ∨ (∃ rest, s.pending = .releaseReset :: rest ∧ t = releaseReset { s with pending := rest })
      ∨ (∃ a rest, s.pending = .access a :: rest ∧ s.resetLine = false ∧ decode s.params.base a = .busError a.addr
          ∧ t = { s with pending := rest, replies := s.replies ++ [.busError a.addr] })
      ∨ (∃ a rest i, s.pending = .access a :: rest ∧ s.resetLine = false ∧ decode s.params.base a = .instr i
          ∧ exec i { s with pending := rest } = .next t) := by
  unfold step at h
  cases hp : s.pending with
  | nil =>
    rw [nextEvent_of_nil hp] at h
    exact .inl ⟨rfl, (Host.Outcome.next.inj h).symm⟩
  | cons e rest =>
    rw [nextEvent_of_cons hp] at h
    cases e with
    | assertReset => exact .inr (.inl ⟨rest, rfl, (Host.Outcome.next.inj h).symm⟩)
    | releaseReset => exact .inr (.inr (.inl ⟨rest, rfl, (Host.Outcome.next.inj h).symm⟩))
    | access a =>
      have hr : s.resetLine = false := by
        cases hr : s.resetLine with
        | false => rfl
        | true => simp [hostEvent, hr] at h
      have he : hostEvent (.access a) { s with pending := rest } = hostAccess a { s with pending := rest } :=
        if_neg (by simp [hr])
      change hostEvent (.access a) { s with pending := rest } = .next t at h
      rw [he, hostAccess] at h
      cases hw : inWindow s.params.base a with
      | false => rw [decode_outside hw] at h; cases h
      | true =>
        cases hl : legalAccess s.params.base a with
        | false =>
          have hd := decode_malformed hw hl
          rw [hd] at h
          exact .inr (.inr (.inr (.inl ⟨a, rest, rfl, hr, hd, (Host.Outcome.next.inj h).symm⟩)))
        | true =>
          obtain ⟨r, rfl⟩ | ⟨r, v, rfl⟩ := decode_legal hw hl
          · have hd := decode_read_access s.params.base r
            rw [hd] at h
            exact .inr (.inr (.inr (.inr ⟨_, rest, _, rfl, hr, hd, h⟩)))
          · have hd := decode_write_access s.params.base r v
            rw [hd] at h
            exact .inr (.inr (.inr (.inr ⟨_, rest, _, rfl, hr, hd, h⟩)))

end Machine

end Sys2Proof
end

