-- ==== Sys2Proof/Laws/Assembler.lean ====
section
/-! SUPPORT. What the assembler's two parts can do: one write with a range, and pieces one after the other. -/

namespace Sys2Proof.Machine

theorem asmWrite_of_lt (reg : Reg) (v : Nat) {operand limit : Nat} (h : operand < limit) :
    asmWrite reg operand limit v = some [.wr reg.offset (BitVec.ofNat 32 v)] := by simp [asmWrite, h]

/-- A write is an assembly error exactly where its operand is out of the range (30_encoding.md R89). -/
@[simp] theorem asmWrite_eq_none_iff (reg : Reg) (operand limit v : Nat) :
    asmWrite reg operand limit v = none ↔ limit ≤ operand := by
  simp [asmWrite]

@[simp] theorem asmJoin_nil : asmJoin [] = some [] := rfl

theorem asmJoin_cons (piece : Option (List Triple)) (rest : List (Option (List Triple))) :
    asmJoin (piece :: rest) = piece.bind fun ts => (asmJoin rest).map fun us => ts ++ us := rfl

@[simp] theorem asmJoin_cons_some (ts : List Triple) (rest : List (Option (List Triple))) :
    asmJoin (some ts :: rest) = (asmJoin rest).map fun us => ts ++ us := rfl

/-- An error in one piece is an error of the whole, and nothing else is (30_encoding.md R90; log 24). -/
theorem asmJoin_eq_none_iff (pieces : List (Option (List Triple))) : asmJoin pieces = none ↔ none ∈ pieces := by
  induction pieces with
  | nil => simp
  | cons piece rest ih => cases piece <;> simp [asmJoin_cons, ih]

/-- Pieces without an error are their triples one after the other. -/
theorem asmJoin_map_some (pieces : List (List Triple)) : asmJoin (pieces.map some) = some pieces.flatten := by
  induction pieces with
  | nil => rfl
  | cons ts rest ih => simp [ih]

/-- Joining in two goes. -/
theorem asmJoin_append (front back : List (Option (List Triple))) :
    asmJoin (front ++ back) = asmJoin [asmJoin front, asmJoin back] := by
  induction front with
  | nil => cases h : asmJoin back <;> simp [asmJoin_cons, h]
  | cons piece rest ih =>
    rw [List.cons_append, asmJoin_cons, ih]
    cases piece with
    | none => simp [asmJoin_cons]
    | some ts => cases hr : asmJoin rest <;> cases hb : asmJoin back <;> simp [asmJoin_cons, hr]

end Sys2Proof.Machine
end

