-- ==== Sys2Proof/Laws/Binary64.lean ====
section
/-! SUPPORT. What rounding and the exact operations do, said once. -/

namespace Sys2Proof.Machine

/-- `roundHalfEven m d` is a nearest multiple: it is off by at most half a unit. -/
theorem roundHalfEven_close (m d : Nat) :
    2 * m ≤ (2 * roundHalfEven m d + 1) * 2 ^ d ∧ 2 * roundHalfEven m d * 2 ^ d ≤ 2 * m + 2 ^ d := by
  have hm : 2 ^ d * (m / 2 ^ d) + m % 2 ^ d = m := Nat.div_add_mod m (2 ^ d)
  have hlt : m % 2 ^ d < 2 ^ d := Nat.mod_lt _ (Nat.two_pow_pos d)
  unfold roundHalfEven
  simp only
  generalize m / 2 ^ d = k at *
  generalize m % 2 ^ d = r at *
  generalize 2 ^ d = u at *
  subst hm
  split_ifs <;> constructor <;> nlinarith

/-- Half a unit off only where the result is even. -/
theorem roundHalfEven_tie {m d : Nat}
    (h : 2 * m = (2 * roundHalfEven m d + 1) * 2 ^ d ∨ 2 * roundHalfEven m d * 2 ^ d = 2 * m + 2 ^ d) :
    roundHalfEven m d % 2 = 0 := by
  have hm : 2 ^ d * (m / 2 ^ d) + m % 2 ^ d = m := Nat.div_add_mod m (2 ^ d)
  have hlt : m % 2 ^ d < 2 ^ d := Nat.mod_lt _ (Nat.two_pow_pos d)
  unfold roundHalfEven at h ⊢
  simp only at h ⊢
  generalize m / 2 ^ d = k at *
  generalize m % 2 ^ d = r at *
  generalize 2 ^ d = u at *
  subst hm
  split_ifs at h ⊢ with h1 h2
  · exfalso; rcases h with h | h <;> nlinarith
  · exact h2.2
  · by_cases ht : 2 * r = u
    · omega
    · exfalso; rcases h with h | h <;> nlinarith [lt_of_le_of_ne (not_lt.1 h1) (Ne.symm ht)]

/-- A number that is a whole number of units is kept. -/
theorem roundHalfEven_exact (k d : Nat) : roundHalfEven (k * 2 ^ d) d = k := by
  simp [roundHalfEven]

/-- Rounding keeps order. -/
theorem roundHalfEven_mono {m n : Nat} (d : Nat) (h : m ≤ n) : roundHalfEven m d ≤ roundHalfEven n d := by
  obtain ⟨_, hm⟩ := roundHalfEven_close m d
  obtain ⟨hn, _⟩ := roundHalfEven_close n d
  by_contra hc
  have hu := Nat.two_pow_pos d
  have hle : roundHalfEven n d + 1 ≤ roundHalfEven m d := by omega
  have hmul : (roundHalfEven n d + 1) * 2 ^ d ≤ roundHalfEven m d * 2 ^ d := Nat.mul_le_mul_right _ hle
  have heq : m = n := by nlinarith
  subst heq
  omega

/-- The value of an exact number. -/
theorem Exact.mul_value (a b : Exact) :
    ((a.mul b).num : ℚ) * (2 : ℚ) ^ (a.mul b).exp = (a.num * (2 : ℚ) ^ a.exp) * (b.num * (2 : ℚ) ^ b.exp) := by
  simp only [Exact.mul, Int.cast_mul]
  rw [zpow_add₀ (by norm_num)]
  ring

theorem Exact.sub_value (a b : Exact) :
    ((a.sub b).num : ℚ) * (2 : ℚ) ^ (a.sub b).exp = a.num * (2 : ℚ) ^ a.exp - b.num * (2 : ℚ) ^ b.exp := by
  have key : ∀ e : Int, min a.exp b.exp ≤ e →
      (2 : ℚ) ^ (e - min a.exp b.exp).toNat * (2 : ℚ) ^ (min a.exp b.exp) = (2 : ℚ) ^ e := by
    intro e he
    rw [← zpow_natCast, ← zpow_add₀ (by norm_num), Int.toNat_of_nonneg (by omega)]
    congr 1
    omega
  simp only [Exact.sub, Int.cast_sub, Int.cast_mul, Int.cast_pow, Int.cast_ofNat, sub_mul, mul_assoc]
  rw [key a.exp (min_le_left _ _), key b.exp (min_le_right _ _)]

end Sys2Proof.Machine
end

