-- ==== Sys2Proof/Laws/Bits.lean ====
section
/-! SUPPORT. The fields of a command word and of the words the registers read. -/

namespace Sys2Proof

/-! ### Command words (30_encoding.md R80) -/

@[simp] theorem cmdOp_commandWord (o a : Byte) (h : Half) : cmdOp (commandWord o a h) = o := by
  apply BitVec.eq_of_getLsbD_eq
  intro i hi
  simp [cmdOp, commandWord, hi, show i < 16 by omega, show i < 32 by omega]

@[simp] theorem cmdArg8_commandWord (o a : Byte) (h : Half) : cmdArg8 (commandWord o a h) = a := by
  apply BitVec.eq_of_getLsbD_eq
  intro i hi
  simp [cmdArg8, commandWord, hi, show 8 + i < 32 by omega, show 8 + i < 16 by omega]

@[simp] theorem cmdArg16_commandWord (o a : Byte) (h : Half) : cmdArg16 (commandWord o a h) = h := by
  apply BitVec.eq_of_getLsbD_eq
  intro i hi
  have ha : a.getLsbD (16 + i - 8) = false := BitVec.getLsbD_of_ge _ _ (by omega)
  have ho : o.getLsbD (16 + i) = false := BitVec.getLsbD_of_ge _ _ (by omega)
  simp [cmdArg16, commandWord, hi, show 16 + i < 32 by omega, ha, ho]

/-- A command word is its three fields, and nothing else. -/
theorem commandWord_fields (w : Word) : commandWord (cmdOp w) (cmdArg8 w) (cmdArg16 w) = w := by
  apply BitVec.eq_of_getLsbD_eq
  intro i hi
  simp only [cmdOp, cmdArg8, cmdArg16, commandWord, BitVec.getLsbD_or, BitVec.getLsbD_shiftLeft,
    BitVec.getLsbD_setWidth, BitVec.getLsbD_extractLsb', BitVec.zeroExtend, hi]
  by_cases h1 : i < 8
  · simp [h1, show i < 16 by omega]
  by_cases h2 : i < 16
  · simp [h1, h2, show i - 8 < 8 by omega, show i - 8 < 32 by omega, show 8 + (i - 8) = i by omega]
  · simp [h1, h2, show ¬ (i - 8 < 8) by omega, show 16 + (i - 16) = i by omega, show i - 16 < 16 by omega,
      show i - 16 < 32 by omega]

/-! ### Fields put side by side, as numbers -/

/-- A field shifted up above another one that fits below it: the number of the whole. -/
theorem toNat_shiftLeft_or {w : Nat} (a b : BitVec w) (k : Nat) (ha : a.toNat * 2 ^ k < 2 ^ w) (hb : b.toNat < 2 ^ k) :
    ((a <<< k) ||| b).toNat = a.toNat * 2 ^ k + b.toNat := by
  rw [BitVec.toNat_or, BitVec.toNat_shiftLeft, Nat.shiftLeft_eq, Nat.mod_eq_of_lt ha, ← Nat.shiftLeft_eq,
    Nat.shiftLeft_add_eq_or_of_lt hb]

/-- Widening changes no number. -/
theorem toNat_zeroExtend_of_le {m w : Nat} (a : BitVec m) (h : m ≤ w) : (a.zeroExtend w).toNat = a.toNat := by
  rw [BitVec.zeroExtend, BitVec.toNat_setWidth]
  exact Nat.mod_eq_of_lt (Nat.lt_of_lt_of_le a.isLt (Nat.pow_le_pow_right (by decide) h))

end Sys2Proof
end

