-- ==== Sys2Proof/Laws/PerInstr.lean ====
section
/-! SUPPORT. Statements for all instructions, one lemma per constructor. -/

/-- Every instruction's access is a legal access of the window (20_memory.md R61, R62; 30_encoding.md R87). -/
def Sys2Proof.Laws.EncodesLegally.Statement (i : Sys2Proof.Instr) : Prop :=
  ∀ base : Nat, Sys2Proof.inWindow base (Sys2Proof.encode base i) = true
    ∧ Sys2Proof.legalAccess base (Sys2Proof.encode base i) = true

namespace Sys2Proof.Laws.EncodesLegally

theorem nop : Statement .nop := fun base => Triple.access_wr_ok base .cmd _

theorem crcInit : Statement .crcInit := fun base => Triple.access_wr_ok base .cmd _

theorem crcFeed (b : Byte) : Statement (.crcFeed b) := fun base => Triple.access_wr_ok base .cmd _

theorem frame (r : Byte) : Statement (.frame r) := fun base => Triple.access_wr_ok base .cmd _

theorem check (r : Byte) : Statement (.check r) := fun base => Triple.access_wr_ok base .cmd _

theorem read (r : Byte) : Statement (.read r) := fun base => Triple.access_wr_ok base .cmd _

theorem convert (h : Half) : Statement (.convert h) := fun base => Triple.access_wr_ok base .cmd _

theorem rxClear : Statement .rxClear := fun base => Triple.access_wr_ok base .cmd _

theorem srst : Statement .srst := fun base => Triple.access_wr_ok base .cmd _

theorem illegal (w : Word) : Statement (.illegal w) := fun base => Triple.access_wr_ok base .cmd _

theorem rxPush (v : Word) : Statement (.rxPush v) := fun base => Triple.access_wr_ok base .rxByte _

theorem wr (reg : Reg) (v : Word) : Statement (.wr reg v) := fun base => Triple.access_wr_ok base reg _

theorem rd (reg : Reg) : Statement (.rd reg) := fun base => Triple.access_rd_ok base reg

end Sys2Proof.Laws.EncodesLegally
end

