-- ==== Sys2Proof/Laws/Run.lean ====
section
/-! SUPPORT. Runs of several steps. -/

namespace Sys2Proof.Safety

open Sys2Proof.Machine

@[simp] theorem run_zero (s : State) : run 0 s = .next s := rfl

theorem run_succ (n : Nat) (s : State) :
    run (n + 1) s =
      match step s with
      | .next t => run n t
      | .fault f => .fault f
      | .refused r => .refused r := rfl

theorem run_succ_of_next {s t : State} (n : Nat) (h : step s = .next t) : run (n + 1) s = run n t := by
  rw [run_succ, h]

/-- A run of `m + n` steps is a run of `m` and then one of `n`. -/
theorem run_add_of_next {s t : State} {m : Nat} (n : Nat) (h : run m s = .next t) : run (m + n) s = run n t := by
  induction m generalizing s with
  | zero => cases h; rw [Nat.zero_add]
  | succ m ih =>
    cases hs : step s with
    | next u =>
      rw [run_succ_of_next m hs] at h
      rw [Nat.succ_add, run_succ_of_next _ hs, ih h]
    | fault f => rw [run_succ, hs] at h; cases h
    | refused r => rw [run_succ, hs] at h; cases h

/-- What every step keeps, every run keeps. -/
theorem run_induction {P : State → Prop} (hstep : ∀ s t, P s → step s = .next t → P t) {n : Nat} {s t : State}
    (hs : P s) (h : run n s = .next t) : P t := by
  induction n generalizing s with
  | zero => cases h; exact hs
  | succ n ih =>
    cases hst : step s with
    | next u => rw [run_succ_of_next n hst] at h; exact ih (hstep s u hs hst) h
    | fault f => rw [run_succ, hst] at h; cases h
    | refused r => rw [run_succ, hst] at h; cases h

/-- The runs of this package are the host's runs of the machine. -/
theorem host_run_eq (n : Nat) (s : State) : Host.Core.run Sys2Proof.core n s = run n s := by
  induction n generalizing s with
  | zero => rfl
  | succ n ih =>
    have hc : ∀ (M : Host.Core) (n : Nat) (s : M.State), M.run (n + 1) s =
        match M.step s with
        | .next t => M.run n t
        | .fault f => .fault f
        | .refused r => .refused r := fun _ _ _ => rfl
    rw [run_succ]
    refine (hc Sys2Proof.core n s).trans ?_
    cases hs : step s with
    | next t => rw [show Sys2Proof.core.step s = _ from hs]; exact ih t
    | fault f => rw [show Sys2Proof.core.step s = _ from hs]; rfl
    | refused r => rw [show Sys2Proof.core.step s = _ from hs]; rfl

end Sys2Proof.Safety
end

