-- ==== Sys2Proof/Tests/Slice0.lean ====
section
/-! SUPPORT. Tests on fixed values. Expected values of instructions come from spec/95_test_vectors.md, words from the
encodings of spec/30_encoding.md R83 and R87. The last part gives, for every statement with hypotheses, a state and
operands that meet them. -/

namespace Sys2Proof.Tests

open Sys2Proof.Machine Sys2Proof.Safety Sys2Proof.Statements

/-! ### Helpers -/

/-- A core with its window at 0x40 and the sensor at 0x5A, just after reset. -/
def fresh : State := State.resetWith { Params.default with baseBlock := 1 }

/-- The fresh core with the given receive buffer. -/
def received (b0 b1 b2 : Byte) (cnt : BitVec 3) : State :=
  { fresh with x := { fresh.x with rx0 := b0, rx1 := b1, rx2 := b2, rxCnt := cnt } }

/-- The fresh core after a verified READ 0x07 of 10 27 A4. -/
def afterRead : State :=
  { fresh with x := readBody fresh.params 0x07#8 ((received 0x10#8 0x27#8 0xA4#8 3#3).x.setLastOp 0x05#8) }

/-- The fresh core whose host is about to do the given. -/
def hosting (events : List HostEvent) : State := { fresh with pending := events }

/-- What the registers named read after an instruction (43_control.md R165). -/
def shows (regs : List Reg) : Host.Outcome State Fault Refusal → Option (List Word)
  | .next t => some (regs.map (readValue t.params t.x))
  | .fault _ => none
  | .refused _ => none

/-- The elements and the answers after an outcome. -/
def elementsAndReplies : Host.Outcome State Fault Refusal → Option (Elements × List Reply)
  | .next t => some (t.x, t.replies)
  | .fault _ => none
  | .refused _ => none

/-! ### Well-formed terms -/

theorem test_wf_refuses_legal_word_as_illegal : (Instr.illegal 0x00000703#32).wellFormed = false := by decide

theorem test_wf_accepts_illegal_word : (Instr.illegal 0x00000100#32).wellFormed = true := by decide

theorem test_wf_refuses_wr_to_cmd : (Instr.wr .cmd 0x00000001#32).wellFormed = false := by decide

theorem test_wf_refuses_wr_to_rxbyte : (Instr.wr .rxByte 0x00000001#32).wellFormed = false := by decide

/-! ### The register map of 10_state.md R24, offset by offset -/

theorem test_register_at_each_offset :
    [0x00, 0x04, 0x08, 0x0C, 0x10, 0x14, 0x18, 0x1C, 0x20, 0x24, 0x28, 0x2C, 0x30, 0x34, 0x38, 0x3C].map Reg.atOffset
      = [Reg.id, .cmd, .status, .devAddr, .rxByte, .rxBuf, .crc, .frame0, .frame1, .tempCc, .tempF64Lo, .tempF64Hi, .raw,
          .reserved34, .reserved38, .reserved3C].map some := by decide

/-! ### Decoding: words written out from R83, accesses from R87 -/

theorem test_decode_nop : decodeCommand 0x00000000#32 = .nop := by decide

theorem test_decode_crc_init : decodeCommand 0x00000001#32 = .crcInit := by decide

theorem test_decode_crc_feed : decodeCommand 0x0000B402#32 = .crcFeed 0xB4#8 := by decide

theorem test_decode_frame : decodeCommand 0x00000703#32 = .frame 0x07#8 := by decide

theorem test_decode_check : decodeCommand 0x00000604#32 = .check 0x06#8 := by decide

theorem test_decode_read : decodeCommand 0x00000805#32 = .read 0x08#8 := by decide

theorem test_decode_convert : decodeCommand 0x35C20006#32 = .convert 0x35C2#16 := by decide

theorem test_decode_rx_clear : decodeCommand 0x00000007#32 = .rxClear := by decide

theorem test_decode_srst : decodeCommand 0x00000008#32 = .srst := by decide

/-- The first opcode above the map, and each format's unused field set (R81, R84). -/
theorem test_decode_illegal :
    decodeCommand 0x00000009#32 = .illegal 0x00000009#32 ∧ decodeCommand 0x00000100#32 = .illegal 0x00000100#32
      ∧ decodeCommand 0x00010002#32 = .illegal 0x00010002#32 ∧ decodeCommand 0x00000106#32 = .illegal 0x00000106#32
      ∧ decodeCommand 0xFFFFFFFF#32 = .illegal 0xFFFFFFFF#32 := by decide

theorem test_decode_rxpush : decode 0x40 (.write 0x50 4 0xF#4 0xFFFFFF10#32) = .instr (.rxPush 0xFFFFFF10#32) := by
  decide

theorem test_decode_wr : decode 0x40 (.write 0x4C 4 0xF#4 0x00000011#32) = .instr (.wr .devAddr 0x00000011#32) := by
  decide

theorem test_decode_rd :
    decode 0x40 (.read 0x44 4) = .instr (.rd .cmd) ∧ decode 0x40 (.read 0x7C 4) = .instr (.rd .reserved3C) := by decide

/-- Both ends of the window, the malformed accesses of L2.4 (R62, R63), and 43_control.md R167's
write without any enable and access of 3 bytes. -/
theorem test_decode_refusals :
    decode 0x40 (.read 0x3F 4) = .outside 0x3F ∧ decode 0x40 (.read 0x80 4) = .outside 0x80
      ∧ decode 0x40 (.read 0x48 1) = .busError 0x48 ∧ decode 0x40 (.read 0x68 2) = .busError 0x68
      ∧ decode 0x40 (.read 0x42 4) = .busError 0x42
      ∧ decode 0x40 (.write 0x44 4 0x3#4 0x00000001#32) = .busError 0x44
      ∧ decode 0x40 (.write 0x44 4 0x0#4 0x00000001#32) = .busError 0x44
      ∧ decode 0x40 (.read 0x44 3) = .busError 0x44 := by decide

/-- The opcode table's own numbering (log 10). -/
theorem test_decode_table_words :
    decodeTableWord 32 0x00000703 = some (.frame 0x07#8) ∧ decodeTableWord 8 0x10 = some (.rxPush 0#32)
      ∧ decodeTableWord 8 0x08 = some (.wr .status 0#32) ∧ decodeTableWord 8 0x48 = some (.rd .status)
      ∧ decodeTableWord 8 0x02 = none ∧ decodeTableWord 8 0xFF = some (.illegal 0x000000FF#32) := by decide

theorem test_placed_word_runs_first :
    step (State.reset.withFetchWord 32 0x00000009)
      = .next (answered State.reset { State.reset.x with code := 5#4, lastOp := 0x09#8 } .completed) := rfl

/-! ### Instructions, values of 95_test_vectors.md -/

/-- L2.1: the bit steps of crc8_byte(0x00, 0xB4). -/
theorem test_crc_bit_steps :
    (List.range 8).map (fun k => Nat.repeat crcBitStep (k + 1) 0xB4#8)
      = [0x6F#8, 0xDE#8, 0xBB#8, 0x71#8, 0xE2#8, 0xC3#8, 0x81#8, 0x05#8] := by decide +kernel

/-- L1 E1. -/
theorem test_crc8_golden : crc8 [0xB4#8, 0x07#8, 0xB5#8, 0x10#8, 0x27#8] = 0xA4#8 := by decide +kernel

/-- L2.1. -/
theorem test_crc_init : shows [.crc, .status] (exec .crcInit { fresh with x := { fresh.x with crc := 0xA4#8 } })
    = some [0x00000000#32, 0x00000101#32] := by decide +kernel

/-- L2.1. -/
theorem test_crc_feed : shows [.crc, .status] (exec (.crcFeed 0x07#8) { fresh with x := { fresh.x with crc := 0x05#8 } })
    = some [0x0000000E#32, 0x00000201#32] := by decide +kernel

/-- L2.1, with the table engine. -/
theorem test_crc_feed_table : shows [.crc] (exec (.crcFeed 0x34#8)
      { fresh with params := { fresh.params with crcImpl := .table }, x := { fresh.x with crc := 0x12#8 } })
    = some [0x000000F2#32] := by decide +kernel

/-- L2.2. -/
theorem test_frame : shows [.status, .crc, .frame0, .frame1, .rxBuf]
      (exec (.frame 0x07#8) (received 0x10#8 0x27#8 0xA5#8 3#3))
    = some [0x00000301#32, 0x000000A4#32, 0x10B507B4#32, 0x0000A527#32, 0x00000000#32] := by decide +kernel

/-- L2.2. -/
theorem test_frame_short : shows [.status, .crc, .frame0, .rxBuf] (exec (.frame 0x07#8) (received 0x10#8 0x27#8 0x00#8 2#3))
    = some [0x00000303#32, 0x00000000#32, 0x00000000#32, 0x00000000#32] := by decide +kernel

/-- L2.2. -/
theorem test_check_match : shows [.status, .crc, .frame1] (exec (.check 0x07#8) (received 0x10#8 0x27#8 0xA4#8 3#3))
    = some [0x00000401#32, 0x000000A4#32, 0x0000A427#32] := by decide +kernel

/-- L2.2. -/
theorem test_check_mismatch : shows [.status, .crc, .frame1] (exec (.check 0x07#8) (received 0x10#8 0x27#8 0xA5#8 3#3))
    = some [0x00000402#32, 0x000000A4#32, 0x0000A527#32] := by decide +kernel

/-- L2.2: 28.75 degrees. -/
theorem test_read_ok : shows [.status, .crc, .raw, .tempCc, .tempF64Hi, .tempF64Lo]
      (exec (.read 0x06#8) (received 0xF7#8 0x3A#8 0xC9#8 3#3))
    = some [0x00000511#32, 0x000000C9#32, 0x00003AF7#32, 0x00000B3B#32, 0x403CC000#32, 0x00000010#32] := by decide +kernel

/-- L2.2: a failing READ, here the operand before the length, clears the conversion and empties the buffer. -/
theorem test_read_register_error : shows [.status, .raw, .tempCc, .tempF64Hi, .crc, .rxBuf]
      (exec (.read 0x00#8) { afterRead with x := { afterRead.x with rx0 := 0x10#8, rx1 := 0x27#8, rxCnt := 2#3 } })
    = some [0x00000504#32, 0x00000000#32, 0x00000000#32, 0x00000000#32, 0x000000A4#32, 0x00000000#32] := by decide +kernel

/-- L2.3: 2.09 degrees, after a verified READ. -/
theorem test_convert : shows [.status, .raw, .tempCc, .tempF64Hi, .tempF64Lo] (exec (.convert 0x35C2#16) afterRead)
    = some [0x00000601#32, 0x000035C2#32, 0x000000D1#32, 0x4000B851#32, 0xEB851F00#32] := by decide +kernel

/-- L2.3: both ends of the range, the smallest temperatures around 0, and the largest error. -/
theorem test_conversion_table :
    [0, 13657, 13658, 64880, 65535].map (fun n => convF64 (BitVec.ofNat 16 n))
      = [0xC071126666666666#64, 0xBF847AE147AE0000#64, 0x3F847AE147AE8000#64, 0x409001CCCCCCCCCE#64,
          0x4090363333333334#64] := by decide +kernel

/-- L2.4. -/
theorem test_nop : shows [.status] (exec .nop { fresh with x := { fresh.x with code := 2#4, lastOp := 0x05#8 } })
    = some [0x00000001#32] := by decide +kernel

/-- L2.4. -/
theorem test_rx_clear : shows [.rxBuf, .status] (exec .rxClear (received 0x10#8 0xA4#8 0x00#8 2#3))
    = some [0x00000000#32, 0x00000701#32] := by decide +kernel

/-- L2.4. -/
theorem test_srst : elementsAndReplies (exec .srst afterRead) = some (fresh.x, [.completed]) := by decide +kernel

/-- L2.2: READ with ARG16 = 1 after a verified READ keeps TVER and the conversion. -/
theorem test_illegal : shows [.status, .tempCc] (exec (.illegal 0x00010705#32) afterRead)
    = some [0x00000515#32, 0xFFFFE36D#32] := by decide +kernel

/-- L2.4: the upper 24 bits are ignored. -/
theorem test_rxpush : shows [.rxBuf] (exec (.rxPush 0xFFFFFF10#32) fresh) = some [0x01000010#32] := by decide +kernel

/-- L2.4: a fourth byte is dropped and the count is 4. -/
theorem test_rxpush_overflow : shows [.rxBuf] (exec (.rxPush 0x00000055#32) (received 0x10#8 0x27#8 0xA4#8 3#3))
    = some [0x04A42710#32] := by decide +kernel

/-- L2.4. -/
theorem test_wr : shows [.devAddr, .status] (exec (.wr .devAddr 0x00000011#32) afterRead)
    = some [0x0000005A#32, 0x00000511#32] := by decide +kernel

/-- L2.4 and P2. -/
theorem test_rd : elementsAndReplies (exec (.rd .tempF64Lo) afterRead) = some (afterRead.x, [.data 0x99999998#32]) := by decide +kernel

/-- L2.4: a CMD write with byte enables for bytes 0 and 1 only. -/
theorem test_bus_error_changes_no_element :
    elementsAndReplies (step (hosting [.access (.write 0x44 4 0x3#4 0x00000001#32)]))
      = some (fresh.x, [.busError 0x44]) := by decide +kernel

/-- 30_encoding.md R90. -/
theorem test_assemble_readtemp : assemble (.readTemp 0x07 0x10 0x27 0xA4)
    = some [.wr 0x10#6 0x10#32, .wr 0x10#6 0x27#32, .wr 0x10#6 0xA4#32, .wr 0x04#6 0x00000705#32, .rd 0x08#6] := by decide +kernel

/-- 30_encoding.md R90. -/
theorem test_assemble_crc_bytes : assemble (.crcBytes [0xB4, 0x07])
    = some [.wr 0x04#6 0x00000001#32, .wr 0x04#6 0x0000B402#32, .wr 0x04#6 0x00000702#32] := by decide +kernel

/-! ### Witnesses: the hypotheses of each statement can be met -/

theorem witness_DecodeInvertsEncode :
    (Instr.illegal 0x00000009#32).wellFormed = true ∧ (Instr.wr .reserved3C 0xFFFFFFFF#32).wellFormed = true := by decide

theorem witness_EncodeInvertsDecode : decode 0x40 (.write 0x44 4 0xF#4 0xFFFF0006#32) = .instr (.convert 0xFFFF#16) := by
  decide

theorem witness_AtMostOneOpcodeRowMatches :
    ∃ r ∈ opcodeMap, 0x0000FF02#32 &&& r.mask = r.pattern := by decide

theorem matchesNoRow_firstFreeOpcode : MatchesNoRow 0x00000009#32 := by unfold MatchesNoRow; decide

theorem matchesNoRow_unusedField : MatchesNoRow 0x00010002#32 := by unfold MatchesNoRow; decide

/-- A word with the first free opcode, and one with a field its format does not use. -/
theorem witness_IllegalWordsOnlyChangeStatus : MatchesNoRow 0x00000009#32 ∧ MatchesNoRow 0x00010002#32 :=
  ⟨matchesNoRow_firstFreeOpcode, matchesNoRow_unusedField⟩

/-- Each range at its end: the largest operand that fits, the smallest that does not. -/
theorem witness_AssembledLinesDecode :
    assemble (.crcFeed 0xFF) = some [.wr 0x04#6 0x0000FF02#32] ∧ assemble (.convert 0xFFFF) = some [.wr 0x04#6 0xFFFF0006#32]
      ∧ assemble (.wr .reserved3C 0xFFFFFFFF) = some [.wr 0x3C#6 0xFFFFFFFF#32]
      ∧ assemble (.rxPush 0x100) = none ∧ assemble (.convert 0x10000) = none ∧ assemble (.wr .cmd 0x100000000) = none
      ∧ assemble (.readTemp 0x100 0xFF 0xFF 0xFF) = none ∧ (assemble (.readTemp 0xFF 0xFF 0xFF 0xFF)).isSome
      ∧ assemble (.crcBytes []) = some [.wr 0x04#6 0x00000001#32]
      ∧ assemble (.crcBytes [0xFF, 0x100]) = none := by decide

theorem witness_StepRunsDecodedInstruction :
    (hosting [.access (.write 0x44 4 0xF#4 0x00000703#32)]).pending = .access (.write 0x44 4 0xF#4 0x00000703#32) :: []
      ∧ (hosting [.access (.write 0x44 4 0xF#4 0x00000703#32)]).resetLine = false
      ∧ decode fresh.params.base (.write 0x44 4 0xF#4 0x00000703#32) = .instr (.frame 0x07#8)
      ∧ (Instr.frame 0x07#8).wellFormed = true := by decide

theorem witness_PlacedCommandWordRunsNext : State.reset.resetLine = false := rfl

/-- A malformed access at the last byte of the window, and a well-formed one at its last register. -/
theorem witness_ExactlyMalformedAccessesAreBusErrors :
    (∃ rest, (hosting [.access (.read 0x7F 4)]).pending = .access (.read 0x7F 4) :: rest)
      ∧ (hosting [.access (.read 0x7F 4)]).resetLine = false
      ∧ InWindow fresh.params.base (.read 0x7F 4) ∧ Malformed fresh.params.base (.read 0x7F 4)
      ∧ (∃ rest, (hosting [.access (.read 0x7C 4)]).pending = .access (.read 0x7C 4) :: rest)
      ∧ InWindow fresh.params.base (.read 0x7C 4) ∧ ¬ Malformed fresh.params.base (.read 0x7C 4) := by
  refine ⟨⟨_, rfl⟩, rfl, by decide, .inr (by decide), ⟨_, rfl⟩, by decide, ?_⟩
  rintro (h | h) <;> exact absurd h (by decide)

/-- Just below and just above the window. -/
theorem witness_AccessOutsideWindowFaults :
    (∃ rest, (hosting [.access (.read 0x3F 4)]).pending = .access (.read 0x3F 4) :: rest)
      ∧ (hosting [.access (.read 0x3F 4)]).resetLine = false
      ∧ ¬ InWindow fresh.params.base (.read 0x3F 4) ∧ ¬ InWindow fresh.params.base (.read 0x80 4) :=
  ⟨⟨_, rfl⟩, rfl, by decide, by decide⟩

theorem witness_AccessDuringResetRefused :
    ∃ s : State, s.pending = .access (.read 0x48 4) :: [] ∧ s.resetLine = true :=
  ⟨{ hosting [.access (.read 0x48 4)] with resetLine := true }, rfl, rfl⟩

theorem witness_CoreWaitsForTheHost : fresh.pending = [] := rfl

theorem witness_ResetInputResetsEveryElement :
    ({ afterRead with pending := [.assertReset, .releaseReset] } : State).pending = .assertReset :: .releaseReset :: [] :=
  rfl

/-- A core that gets SRST and one whose reset input is released, with the same further event. -/
theorem witness_SoftAndHardResetIndistinguishable :
    ∃ s s' t t' u : State, s.params = s'.params
      ∧ s.pending = .access (encode s.params.base .srst) :: [.access (.read 0x48 4)] ∧ s.resetLine = false
      ∧ s'.pending = .releaseReset :: [.access (.read 0x48 4)] ∧ s'.resetLine = true
      ∧ step s = .next t ∧ step s' = .next t' ∧ run 1 t = .next u :=
  ⟨{ afterRead with pending := [.access (encode fresh.params.base .srst), .access (.read 0x48 4)] },
    { afterRead with pending := [.releaseReset, .access (.read 0x48 4)], resetLine := true },
    _, _, _, rfl, rfl, rfl, rfl, rfl, rfl, rfl, rfl⟩

theorem witness_ChecksumLaws : ([0x00#8] : List Byte) ≠ [] ∧ 0x00#8 ≠ 0x01#8 := by decide

theorem witness_CrcFeedFoldsBytes :
    ∃ s : State, s.resetLine = false ∧ s.pending = .access (encode s.params.base .crcInit)
      :: [0xB4#8, 0x07#8].map (fun b => .access (encode s.params.base (.crcFeed b))) :=
  ⟨hosting [.access (encode fresh.params.base .crcInit), .access (encode fresh.params.base (.crcFeed 0xB4#8)),
    .access (encode fresh.params.base (.crcFeed 0x07#8))], rfl, rfl⟩

theorem witness_FrameCommandsConsumeTheBuffer :
    (Instr.read 0x07#8 = .frame 0x07#8 ∨ Instr.read 0x07#8 = .check 0x07#8 ∨ Instr.read 0x07#8 = .read 0x07#8)
      ∧ (Instr.check 0xFF#8 = .frame 0xFF#8 ∨ Instr.check 0xFF#8 = .check 0xFF#8
          ∨ Instr.check 0xFF#8 = .read 0xFF#8 ∧ TempReg 0xFF#8) := by decide

/-- One witness for each clause, at the ends of the ranges: counts 2, 3 and 4, registers 0x05, 0x06, 0x08 and 0x09. -/
theorem witness_OutcomeCodePriority :
    (∃ t, exec (decodeCommand 0x00000009#32) fresh = .next t) ∧ MatchesNoRow 0x00000009#32
      ∧ (¬ MatchesNoRow 0x00000008#32 ∧ (0x00000008#32).setWidth 8 = 0x08#8)
      ∧ (¬ MatchesNoRow 0x00000007#32 ∧ (0x00000007#32).setWidth 8 ∈ [0x00#8, 0x01#8, 0x02#8, 0x06#8, 0x07#8])
      ∧ (decodeCommand 0x00000505#32 = .read 0x05#8 ∧ ¬ TempReg 0x05#8)
      ∧ (decodeCommand 0x00000905#32 = .read 0x09#8 ∧ ¬ TempReg 0x09#8)
      ∧ (decodeCommand 0x00000605#32 = .read 0x06#8 ∧ TempReg 0x06#8 ∧ (received 0x10#8 0x27#8 0x00#8 2#3).x.rxCnt ≠ 3#3)
      ∧ (decodeCommand 0x00000804#32 = .check 0x08#8 ∧ (received 0x10#8 0x27#8 0xA4#8 4#3).x.rxCnt ≠ 3#3)
      ∧ (decodeCommand 0x00000805#32 = .read 0x08#8 ∧ TempReg 0x08#8 ∧ (received 0x10#8 0x27#8 0xA4#8 3#3).x.rxCnt = 3#3)
      ∧ decodeCommand 0x0000FF03#32 = .frame 0xFF#8 :=
  ⟨⟨_, rfl⟩, matchesNoRow_firstFreeOpcode,
    ⟨fun h => absurd (h ⟨"SRST", 0x00000008#32, 0xFFFFFFFF#32⟩ (by decide)) (by decide), by decide⟩,
    ⟨fun h => absurd (h ⟨"RX.CLEAR", 0x00000007#32, 0xFFFFFFFF#32⟩ (by decide)) (by decide), by decide⟩,
    by decide, by decide, by decide, by decide, by decide, by decide⟩

/-- P2: the third byte is the checksum, and one that is not. -/
theorem witness_ReadTransaction :
    ∃ s : State, s.resetLine = false ∧ s.x.rxCnt = 0#3 ∧ TempReg 0x07#8
      ∧ s.pending = pushes s.params.base [(0x10#8).setWidth 32, (0x27#8).setWidth 32, (0xA4#8).setWidth 32]
          ++ [.access (encode s.params.base (.read 0x07#8))]
      ∧ crc8 [0xB4#8, 0x07#8, 0xB5#8, 0x10#8, 0x27#8, 0xA4#8] = 0x00#8
      ∧ crc8 [0xB4#8, 0x07#8, 0xB5#8, 0x10#8, 0x27#8, 0xA5#8] ≠ 0x00#8 :=
  ⟨hosting (pushes fresh.params.base [(0x10#8).setWidth 32, (0x27#8).setWidth 32, (0xA4#8).setWidth 32]
    ++ [.access (encode fresh.params.base (.read 0x07#8))]), rfl, rfl, by decide +kernel, rfl, by decide +kernel, by decide +kernel⟩

/-- Two cores that differ in their history and their engine. -/
theorem witness_ReadDependsOnlyOnReceivedBytes :
    ∃ s s' t t' : State, s ≠ s' ∧ s.params.devAddr = s'.params.devAddr ∧ s.x.rx0 = s'.x.rx0 ∧ s.x.rx1 = s'.x.rx1
      ∧ s.x.rx2 = s'.x.rx2 ∧ s.x.rxCnt = s'.x.rxCnt ∧ exec (.read 0x07#8) s = .next t ∧ exec (.read 0x07#8) s' = .next t'
      ∧ TempReg 0x07#8 ∧ s.x.rxCnt = 3#3 :=
  ⟨received 0x10#8 0x27#8 0xA4#8 3#3,
    { afterRead with
      params := { fresh.params with crcImpl := .table }
      x := { afterRead.x with rx0 := 0x10#8, rx1 := 0x27#8, rx2 := 0xA4#8, rxCnt := 3#3 } },
    _, _, by decide +kernel, rfl, rfl, rfl, rfl, rfl, rfl, rfl, by decide +kernel, rfl⟩

/-- Five pushed words: the buffer overflows. -/
theorem witness_ReceiveBufferKeepsArrivalOrder :
    ∃ s : State, s.resetLine = false ∧ s.x.rxCnt = 0#3 ∧ s.x.rx0 = 0x00#8 ∧ s.x.rx1 = 0x00#8 ∧ s.x.rx2 = 0x00#8
      ∧ s.pending = pushes s.params.base [0x10#32, 0x27#32, 0xA4#32, 0x55#32, 0x66#32] :=
  ⟨hosting (pushes fresh.params.base [0x10#32, 0x27#32, 0xA4#32, 0x55#32, 0x66#32]), rfl, rfl, rfl, rfl, rfl, rfl⟩

/-- One byte too few and one too many. -/
theorem witness_WrongByteCountFailsLengthCheck :
    ∀ vs ∈ [[0x10#32, 0x27#32], [0x10#32, 0x27#32, 0xA4#32, 0x55#32]], ∃ s : State, s.resetLine = false ∧ s.x.rxCnt = 0#3
      ∧ vs.length ≠ 3 ∧ TempReg 0x06#8
      ∧ s.pending = pushes s.params.base vs ++ [.access (encode s.params.base (.read 0x06#8))] := by
  intro vs hvs
  refine ⟨hosting (pushes fresh.params.base vs ++ [.access (encode fresh.params.base (.read 0x06#8))]), rfl, rfl, ?_,
    by decide, rfl⟩
  revert vs
  decide

/-- TVER kept by a read of a register, and set by a READ. -/
theorem witness_OnlyVerifiedReadSetsTver :
    (∃ s t : State, step s = .next t ∧ t.x.tver = 1#1 ∧ s.x.tver = 1#1)
      ∧ ∃ s t : State, step s = .next t ∧ t.x.tver = 1#1 ∧ s.x.tver = 0#1 :=
  ⟨⟨afterRead, _, rfl, by decide +kernel, by decide +kernel⟩,
    ⟨{ received 0x10#8 0x27#8 0xA4#8 3#3 with pending := [.access (encode fresh.params.base (.read 0x07#8))] }, _, rfl,
      by decide +kernel, by decide +kernel⟩⟩

theorem witness_TempF64HalvesBelongTogether :
    ∃ s t : State, s.resetLine = false
      ∧ (∀ e ∈ [HostEvent.access (.read 0x48 4)], ∃ a, e = .access a ∧ ¬ IsWriteAt s.params.base 0x04 a)
      ∧ s.pending = .access (encode s.params.base (.rd .tempF64Lo)) :: [.access (.read 0x48 4)]
          ++ [.access (encode s.params.base (.rd .tempF64Hi))]
      ∧ run ([HostEvent.access (.read 0x48 4)].length + 2) s = .next t := by
  refine ⟨{ afterRead with
    pending := .access (encode fresh.params.base (.rd .tempF64Lo)) :: [.access (.read 0x48 4)]
      ++ [.access (encode fresh.params.base (.rd .tempF64Hi))] }, _, rfl, ?_, rfl, rfl⟩
  intro e he
  refine ⟨.read 0x48 4, by simpa using he, ?_⟩
  rintro ⟨v, hv⟩
  cases hv

theorem witness_WritesToReadOnlyRegistersAreIgnored : Reg.status ≠ .cmd ∧ Reg.status ≠ .rxByte := by decide

theorem witness_OnlyCmdAndRxByteWritesChangeState :
    ∃ s t : State, s.pending = .access (.write 0x48 4 0xF#4 0xFFFFFFFF#32) :: [] ∧ step s = .next t
      ∧ ¬ IsWriteAt s.params.base 0x04 (.write 0x48 4 0xF#4 0xFFFFFFFF#32)
      ∧ ¬ IsWriteAt s.params.base 0x10 (.write 0x48 4 0xF#4 0xFFFFFFFF#32) := by
  refine ⟨hosting [.access (.write 0x48 4 0xF#4 0xFFFFFFFF#32)], _, rfl, rfl, ?_, ?_⟩
  all_goals
    rintro ⟨v, hv⟩
    exact absurd (Access.write.inj hv).1 (by decide)

theorem witness_ReadTwice :
    ∃ t u : State, exec (.rd .crc) fresh = .next t ∧ exec (.rd .crc) t = .next u := ⟨_, _, rfl, rfl⟩

/-- The last byte of a register. -/
theorem witness_WindowBytesAreLittleEndian : 3 < 4 ∧ windowByte afterRead 0x5F = some 0x10#8 := by decide +kernel

/-- The largest device address and the first that is refused, an aligned window address and the one below it. -/
theorem witness_InstantiationRefusesWideAddress : 0x7F < 0x80 ∧ 0x7F ≤ 0x7F ∧ 0x40 % 64 = 0 ∧ 0x3F % 64 ≠ 0 := by
  decide

theorem witness_EveryStepKeepsInvariant : ∃ t, MachineInv afterRead ∧ step afterRead = .next t :=
  ⟨_, ⟨by decide +kernel, by decide +kernel, by decide +kernel, by decide +kernel, by decide +kernel⟩, rfl⟩

theorem witness_ParametersNeverChange : ∃ t, run 2 (hosting [.assertReset, .releaseReset]) = .next t := ⟨_, rfl⟩

/-- The first and the last byte of the window: a legal access and a malformed one. -/
theorem witness_EveryAccessIsAnswered :
    (hosting [.access (.read 0x40 4), .access (.read 0x7F 1)]).resetLine = false
      ∧ ∀ e ∈ (hosting [.access (.read 0x40 4), .access (.read 0x7F 1)]).pending, IsWindowAccess fresh.params.base e := by
  refine ⟨rfl, ?_⟩
  intro e he
  have h : e = .access (.read 0x40 4) ∨ e = .access (.read 0x7F 1) := by simpa [hosting] using he
  rcases h with rfl | rfl
  · exact ⟨_, rfl, by decide⟩
  · exact ⟨_, rfl, by decide⟩

end Sys2Proof.Tests
end

