-- ==== Sys2Proof/Proofs/Scope.lean ====
section
/-! PROOFS. Instantiation of a core (00_scope.md R7, R8): one equation per outcome of `instantiate`, and O51. -/

namespace Sys2Proof.Machine

variable {devAddr base : Nat}

theorem instantiate_of_wide_devAddr (hwide : 0x7F < devAddr) (impl : CrcImpl) (latency : Nat) :
    instantiate devAddr base impl latency = .refused (.illegalDevAddr devAddr) :=
  if_pos hwide

theorem instantiate_of_misaligned_base (hdev : devAddr ≤ 0x7F) (hbase : base % 64 ≠ 0) (impl : CrcImpl)
    (latency : Nat) : instantiate devAddr base impl latency = .refused (.illegalBase base) :=
  (if_neg (Nat.not_lt.mpr hdev)).trans (if_pos hbase)

theorem instantiate_of_legal (hdev : devAddr ≤ 0x7F) (hbase : base % 64 = 0) (impl : CrcImpl) (latency : Nat) :
    instantiate devAddr base impl latency = .next (State.resetWith
      { devAddr := BitVec.ofNat 7 devAddr, baseBlock := base / 64, crcImpl := impl, cmdLatency := latency }) :=
  (if_neg (Nat.not_lt.mpr hdev)).trans (if_neg (not_not_intro hbase))

/-- Settles O51, one clause per outcome of `instantiate`. The parameters it stores stand for the given numbers because a
legal device address fits its seven bits and a legal window address is a whole number of blocks. -/
theorem instantiationRefusesWideAddress : Obligations.InstantiationRefusesWideAddress := by
  intro devAddr base latency impl
  refine ⟨fun hwide => instantiate_of_wide_devAddr hwide impl latency,
    fun hdev hbase => instantiate_of_misaligned_base hdev hbase impl latency,
    fun hdev hbase => ⟨_, instantiate_of_legal hdev hbase impl latency, ?_, ?_, rfl, rfl⟩⟩
  · show (BitVec.ofNat 7 devAddr).toNat = devAddr
    rw [BitVec.toNat_ofNat, Nat.mod_eq_of_lt (Nat.lt_succ_of_le hdev)]
  · show 64 * (base / 64) = base
    exact Nat.mul_div_cancel' (Nat.dvd_of_mod_eq_zero hbase)

end Sys2Proof.Machine
end

section
/-! PROOFS. The state (10_state.md): the CRC engine in both forms, the frame commands in the words of the statements,
what one step does to the parameters, to TVER and to the invariant of the elements, and O14, O44, O52, O53, O54. -/

namespace Sys2Proof.Machine

open Sys2Proof.Safety Sys2Proof.Statements

/-! ### The two forms of the CRC engine (40_crc.md R103) -/

/-- The table of R104 against the bit-serial step, entry by entry. -/
theorem crcTableEntry_eq_repeat_crcBitStep : ∀ i : Byte, crcTableEntry i = Nat.repeat crcBitStep 8 i := by
  decide +kernel

theorem crcEngine_eq_crc8Byte (impl : CrcImpl) : crcEngine impl = crc8Byte := by
  funext c b
  cases impl with
  | serial => rfl
  | table => exact crcTableEntry_eq_repeat_crcBitStep (c ^^^ b)

theorem crcEngineList_eq_crc8 (impl : CrcImpl) (bs : List Byte) : crcEngineList impl bs = crc8 bs := by
  rw [crcEngineList, crcEngine_eq_crc8Byte, crc8]

/-! ### Frame bytes, raw word and temperature registers (41_frame_check.md R120 to R122) -/

theorem shiftedAddr_or_eq_ofNat (a : BitVec 7) {b : Byte} (hb : b.toNat < 2) :
    (a.zeroExtend 8 <<< 1) ||| b = BitVec.ofNat 8 (2 * a.toNat + b.toNat) := by
  have ha := a.isLt
  have hz : (a.zeroExtend 8).toNat = a.toNat := toNat_zeroExtend_of_le a (by decide)
  apply BitVec.eq_of_toNat_eq
  rw [toNat_shiftLeft_or _ _ 1 (by omega) hb, hz, BitVec.toNat_ofNat]
  omega

theorem writeAddrByte_eq_writeAddr (p : Params) : writeAddrByte p.devAddr = writeAddr p :=
  shiftedAddr_or_eq_ofNat p.devAddr (b := 0#8) (by decide)

theorem readAddrByte_eq_readAddr (p : Params) : readAddrByte p.devAddr = readAddr p :=
  shiftedAddr_or_eq_ofNat p.devAddr (b := 1#8) (by decide)

theorem raw16_eq_rawOf (lo hi : Byte) : raw16 lo hi = rawOf lo hi := by
  have hlo : (lo.zeroExtend 16).toNat = lo.toNat := toNat_zeroExtend_of_le lo (by decide)
  have hhi : (hi.zeroExtend 16).toNat = hi.toNat := toNat_zeroExtend_of_le hi (by decide)
  apply BitVec.eq_of_toNat_eq
  rw [raw16, toNat_shiftLeft_or _ _ 8 (by omega) (by omega), hlo, hhi, rawOf, BitVec.toNat_ofNat]
  omega

theorem isTempReg_iff (r : Byte) : isTempReg r = true ↔ TempReg r := by simp [isTempReg]

theorem crcEngineList_frameBytes (p : Params) (r : Byte) (x : Elements) :
    crcEngineList p.crcImpl (frameBytes p.devAddr r x.rx0 x.rx1) = frameCrc p r x := by
  rw [crcEngineList_eq_crc8, frameBytes, writeAddrByte_eq_writeAddr, readAddrByte_eq_readAddr, frameCrc]

/-! ### The frame commands in the words of the statements (41_frame_check.md R124, R127 to R129) -/

theorem Elements.recordFrame_setCrc_consume (p : Params) (r : Byte) (x : Elements) :
    ((x.recordFrame p.devAddr r).setCrc (frameCrc p r x)).consume = framed p r x := by
  rw [recordFrame, writeAddrByte_eq_writeAddr, readAddrByte_eq_readAddr]
  rfl

/-- What FRAME can do: the length check, then the frame. -/
theorem frameBody_cases (p : Params) (r : Byte) (x : Elements) :
    (x.rxCnt ≠ 3#3 ∧ frameBody p r x = (emptied x).setCode codeLenErr)
      ∨ (x.rxCnt = 3#3 ∧ frameBody p r x = (framed p r x).setCode codeOk) := by
  by_cases hlen : x.rxCnt = 3#3
  · exact .inr ⟨hlen, by rw [frameBody_of_complete p r hlen, crcEngineList_frameBytes, x.recordFrame_setCrc_consume]⟩
  · exact .inl ⟨hlen, frameBody_of_wrong_length p r hlen⟩

/-- What CHECK can do: the length check, then the comparison. -/
theorem checkBody_cases (p : Params) (r : Byte) (x : Elements) :
    (x.rxCnt ≠ 3#3 ∧ checkBody p r x = (emptied x).setCode codeLenErr)
      ∨ (x.rxCnt = 3#3 ∧ frameCrc p r x ≠ x.rx2 ∧ checkBody p r x = (framed p r x).setCode codePecErr)
      ∨ (x.rxCnt = 3#3 ∧ frameCrc p r x = x.rx2 ∧ checkBody p r x = (framed p r x).setCode codeOk) := by
  by_cases hlen : x.rxCnt = 3#3
  · have hbody := checkBody_of_complete p r hlen
    rw [crcEngineList_frameBytes, x.recordFrame_setCrc_consume] at hbody
    by_cases hpec : frameCrc p r x = x.rx2
    · exact .inr (.inr ⟨hlen, hpec, by rw [hbody, if_pos hpec]⟩)
    · exact .inr (.inl ⟨hlen, hpec, by rw [hbody, if_neg hpec]⟩)
  · exact .inl ⟨hlen, checkBody_of_wrong_length p r hlen⟩

/-- What READ can do, in the order of 60_exceptions.md R187. -/
theorem readBody_cases (p : Params) (r : Byte) (x : Elements) :
    (¬ TempReg r ∧ readBody p r x = (cleared (emptied x)).setCode codeRegErr)
      ∨ (x.rxCnt ≠ 3#3 ∧ readBody p r x = (cleared (emptied x)).setCode codeLenErr)
      ∨ (x.rxCnt = 3#3 ∧ frameCrc p r x ≠ x.rx2 ∧ readBody p r x = (cleared (framed p r x)).setCode codePecErr)
      ∨ (TempReg r ∧ x.rxCnt = 3#3 ∧ frameCrc p r x = x.rx2
          ∧ readBody p r x = (converted (receivedRaw x) 1#1 (framed p r x)).setCode codeOk) := by
  by_cases hr : isTempReg r = true
  · by_cases hlen : x.rxCnt = 3#3
    · by_cases hpec : frameCrc p r x = x.rx2
      · refine .inr (.inr (.inr ⟨(isTempReg_iff r).mp hr, hlen, hpec, ?_⟩))
        rw [readBody_of_match p hr hlen (by rw [crcEngineList_frameBytes, hpec]), ← hpec, x.recordFrame_setCrc_consume,
          raw16_eq_rawOf]
        rfl
      · refine .inr (.inr (.inl ⟨hlen, hpec, ?_⟩))
        rw [readBody_of_mismatch p hr hlen (by rwa [crcEngineList_frameBytes]), crcEngineList_frameBytes,
          x.recordFrame_setCrc_consume]
        rfl
    · exact .inr (.inl ⟨hlen, readBody_of_wrong_length p hr hlen⟩)
  · exact .inl ⟨fun h => hr ((isTempReg_iff r).mpr h),
      readBody_of_other_register p (Bool.eq_false_iff.mpr hr) x⟩

/-! ### What one step does to the parameters and the elements -/

theorem exec_params {i : Instr} {s t : State} (h : exec i s = .next t) : t.params = s.params := by
  cases i <;> (cases h; rfl)

theorem releaseReset_params (s : State) : (releaseReset s).params = s.params := by
  cases hline : s.resetLine with
  | true => rw [releaseReset_of_asserted hline]
  | false => rw [releaseReset_of_released hline]

theorem releaseReset_x_cases (s : State) : (releaseReset s).x = s.x ∨ (releaseReset s).x = Elements.reset := by
  cases hline : s.resetLine with
  | true => exact .inr (by rw [releaseReset_of_asserted hline])
  | false => exact .inl (by rw [releaseReset_of_released hline])

theorem step_params {s t : State} (h : step s = .next t) : t.params = s.params := by
  obtain ⟨-, rfl⟩ | ⟨rest, -, rfl⟩ | ⟨rest, -, rfl⟩ | ⟨a, rest, -, -, -, rfl⟩ | ⟨a, rest, i, -, -, -, hexec⟩ :=
    step_next_cases h
  · rfl
  · rfl
  · exact releaseReset_params _
  · rfl
  · exact exec_params (s := { s with pending := rest }) hexec

/-- A step leaves the elements, resets them, or does to them what the decoded instruction does. -/
theorem step_elements_cases {s t : State} (h : step s = .next t) :
    t.x = s.x ∨ t.x = Elements.reset
      ∨ ∃ a rest i, s.pending = .access a :: rest ∧ decode s.params.base a = .instr i
          ∧ exec i { s with pending := rest } = .next t := by
  obtain ⟨-, rfl⟩ | ⟨rest, -, rfl⟩ | ⟨rest, -, rfl⟩ | ⟨a, rest, -, -, -, rfl⟩ | ⟨a, rest, i, hp, -, hd, hexec⟩ :=
    step_next_cases h
  · exact .inl rfl
  · exact .inl rfl
  · exact (releaseReset_x_cases _).imp_right .inl
  · exact .inl rfl
  · exact .inr (.inr ⟨a, rest, i, hp, hd, hexec⟩)

/-- Settles O14: with an empty queue there is no next event, so the step is the core waiting. -/
theorem coreWaitsForTheHost : Obligations.CoreWaitsForTheHost := fun _ hidle => step_of_nil hidle

/-- Settles O54: no step changes the parameters, so no run does. -/
theorem parametersNeverChange : Obligations.ParametersNeverChange := by
  intro n s t hrun
  refine run_induction (P := fun u => u.params = s.params) ?_ rfl hrun
  intro u v hu hstep
  exact (step_params hstep).trans hu

/-! ### The access that a READ is (30_encoding.md R86, R87) -/

theorem decodeCommand_eq_read {w : Word} {r : Byte} (h : decodeCommand w = .read r) :
    w = commandWord 0x05#8 r 0#16 := by
  unfold decodeCommand at h
  split at h
  next hlegal =>
    split at h <;> cases h
    next hop =>
      have hzero : cmdArg16 w = 0#16 := by simpa [commandLegal, hop] using hlegal
      rw [← commandWord_fields w, hop, hzero, cmdArg8_commandWord]
  next => cases h

theorem decodeWrite_eq_read {reg : Reg} {v : Word} {r : Byte} (h : decodeWrite reg v = .read r) :
    reg = .cmd ∧ decodeCommand v = .read r := by
  cases reg
  case cmd => exact ⟨rfl, h⟩
  all_goals cases h

theorem legal_of_decode_eq_instr {base : Nat} {a : Access} {i : Instr} (h : decode base a = .instr i) :
    inWindow base a = true ∧ legalAccess base a = true := by
  cases hw : inWindow base a with
  | false => rw [decode_outside hw] at h; cases h
  | true =>
    cases hl : legalAccess base a with
    | false => rw [decode_malformed hw hl] at h; cases h
    | true => exact ⟨rfl, rfl⟩

/-- Only the access that READ r is decodes to READ r. -/
theorem eq_encode_of_decode_eq_read {base : Nat} {a : Access} {r : Byte} (h : decode base a = .instr (.read r)) :
    a = encode base (.read r) := by
  obtain ⟨hw, hl⟩ := legal_of_decode_eq_instr h
  obtain ⟨reg, rfl⟩ | ⟨reg, v, rfl⟩ := decode_legal hw hl
  · rw [decode_read_access] at h
    cases h
  · rw [decode_write_access] at h
    obtain ⟨rfl, hv⟩ := decodeWrite_eq_read (Decoded.instr.inj h)
    rw [decodeCommand_eq_read hv, encode, Instr.triple]

/-! ### TVER (10_state.md R34) -/

/-- The conversion registers of `y` are those of `x`. -/
def SameConversion (x y : Elements) : Prop := y.raw = x.raw ∧ y.tcc = x.tcc ∧ y.tf64 = x.tf64 ∧ y.tver = x.tver

/-- The conversion registers are clear (42_convert.md R147). -/
abbrev ConversionClear (x : Elements) : Prop := x.raw = 0#16 ∧ x.tcc = 0#32 ∧ x.tf64 = 0#64 ∧ x.tver = 0#1

theorem cleared_conversionClear (x : Elements) : ConversionClear (cleared x) := ⟨rfl, rfl, rfl, rfl⟩

/-- Every other outcome of READ clears TVER, so TVER = 1 names the outcome. -/
theorem readBody_of_tver {p : Params} {r : Byte} {x : Elements} (hv : (readBody p r x).tver = 1#1) :
    TempReg r ∧ x.rxCnt = 3#3 ∧ frameCrc p r x = x.rx2
      ∧ readBody p r x = (converted (receivedRaw x) 1#1 (framed p r x)).setCode codeOk := by
  obtain ⟨-, hb⟩ | ⟨-, hb⟩ | ⟨-, -, hb⟩ | hmatch := readBody_cases p r x
  · rw [hb] at hv; cases hv
  · rw [hb] at hv; cases hv
  · rw [hb] at hv; cases hv
  · exact hmatch

theorem frameBody_sameConversion (p : Params) (r : Byte) (x : Elements) : SameConversion x (frameBody p r x) := by
  obtain ⟨-, hb⟩ | ⟨-, hb⟩ := frameBody_cases p r x <;> (rw [hb]; exact ⟨rfl, rfl, rfl, rfl⟩)

theorem checkBody_sameConversion (p : Params) (r : Byte) (x : Elements) : SameConversion x (checkBody p r x) := by
  obtain ⟨-, hb⟩ | ⟨-, -, hb⟩ | ⟨-, -, hb⟩ := checkBody_cases p r x <;> (rw [hb]; exact ⟨rfl, rfl, rfl, rfl⟩)

theorem push_sameConversion (b : Byte) (x : Elements) : SameConversion x (x.push b) := by
  obtain ⟨-, hb⟩ | ⟨-, hb⟩ | ⟨-, hb⟩ | ⟨-, -, -, hb⟩ := x.push_cases b <;> (rw [hb]; exact ⟨rfl, rfl, rfl, rfl⟩)

/-- An instruction that leaves TVER at 1 has left the conversion registers alone, or is a READ. -/
theorem exec_of_tver {i : Instr} {s t : State} (h : exec i s = .next t) (hv : t.x.tver = 1#1) :
    SameConversion s.x t.x ∨ ∃ r, i = .read r ∧ t.x = readBody s.params r (s.x.setLastOp 0x05#8) := by
  cases i with
  | read r => cases h; exact .inr ⟨r, rfl, rfl⟩
  | convert => cases h; cases hv
  | srst => cases h; cases hv
  | frame r => cases h; exact .inl (frameBody_sameConversion s.params r (s.x.setLastOp 0x03#8))
  | check r => cases h; exact .inl (checkBody_sameConversion s.params r (s.x.setLastOp 0x04#8))
  | rxPush v => cases h; exact .inl (push_sameConversion (pushedByte v) s.x)
  | nop | crcInit | crcFeed | rxClear | illegal | wr | rd => cases h; exact .inl ⟨rfl, rfl, rfl, rfl⟩

/-- Settles O44. A step that is not a verified READ either leaves the conversion registers alone or clears TVER. -/
theorem onlyVerifiedReadSetsTver : Obligations.OnlyVerifiedReadSetsTver := by
  intro s t hstep hv
  obtain hx | hx | ⟨a, rest, i, hpending, hdecode, hexec⟩ := step_elements_cases hstep
  · rw [hx] at hv ⊢
    exact .inl ⟨hv, rfl, rfl, rfl⟩
  · rw [hx] at hv
    cases hv
  · obtain ⟨hraw, htcc, htf64, htver⟩ | ⟨r, rfl, hx⟩ := exec_of_tver hexec hv
    · exact .inl ⟨htver.symm.trans hv, hraw, htcc, htf64⟩
    · rw [hx] at hv ⊢
      obtain ⟨hreg, hlen, hpec, hbody⟩ := readBody_of_tver hv
      rw [hbody]
      rw [eq_encode_of_decode_eq_read hdecode] at hpending
      exact .inr ⟨r, rest, hpending, hreg, hlen, hpec, rfl, rfl, rfl⟩

/-! ### The invariant, in a part about the data and a part about STATUS -/

/-- What `MachineInv` says of the receive buffer, the conversion registers and the recorded frame. -/
structure DataWf (p : Params) (x : Elements) : Prop where
  rx : RxWf x
  conv : ConvWf x
  frame : FrameWf p x

/-- What `MachineInv` says of CODE and LASTOP, and of what they tell about the other elements. -/
structure StatusWf (x : Elements) : Prop where
  outcome : OutcomeWf x
  record : RecordWf x

theorem machineInv_iff (s : State) : MachineInv s ↔ DataWf s.params s.x ∧ StatusWf s.x := by
  constructor
  · rintro ⟨hrx, houtcome, hconv, hframe, hrecord⟩
    exact ⟨⟨hrx, hconv, hframe⟩, ⟨houtcome, hrecord⟩⟩
  · rintro ⟨⟨hrx, hconv, hframe⟩, ⟨houtcome, hrecord⟩⟩
    exact ⟨hrx, houtcome, hconv, hframe, hrecord⟩

/-! ### The data part: one lemma per operation -/

theorem rxWf_of_empty {x : Elements} (hcnt : x.rxCnt = 0#3) (h0 : x.rx0 = 0#8) (h1 : x.rx1 = 0#8) (h2 : x.rx2 = 0#8) :
    RxWf x :=
  ⟨by rw [hcnt]; decide, fun _ => h2, fun _ => h1, fun _ => h0⟩

/-- A push fills the slot at the count, so the slots above it stay clear (43_control.md R163). -/
theorem rxWf_push {x : Elements} (b : Byte) (h : RxWf x) : RxWf (x.push b) := by
  obtain ⟨-, h2, h1, -⟩ := h
  obtain ⟨hcnt, hb⟩ | ⟨hcnt, hb⟩ | ⟨hcnt, hb⟩ | ⟨-, -, -, hb⟩ := x.push_cases b <;> rw [hb]
  · rw [hcnt] at h2 h1
    exact ⟨(by decide : 1#3 ≤ 4#3), fun _ => h2 (by decide), fun _ => h1 (by decide), nofun⟩
  · rw [hcnt] at h2
    exact ⟨(by decide : 2#3 ≤ 4#3), fun _ => h2 (by decide), nofun, nofun⟩
  · exact ⟨(by decide : 3#3 ≤ 4#3), nofun, nofun, nofun⟩
  · exact ⟨(by decide : 4#3 ≤ 4#3), nofun, nofun, nofun⟩

theorem DataWf.reset (p : Params) : DataWf p Elements.reset :=
  ⟨rxWf_of_empty rfl rfl rfl rfl, .inl ⟨rfl, rfl, rfl, rfl⟩, .inl ⟨rfl, rfl, rfl, rfl, rfl, rfl⟩⟩

section

variable {p : Params} {x : Elements}

theorem DataWf.setLastOp (op : Byte) (h : DataWf p x) : DataWf p (x.setLastOp op) := ⟨h.rx, h.conv, h.frame⟩

theorem DataWf.setCode (c : BitVec 4) (h : DataWf p x) : DataWf p (x.setCode c) := ⟨h.rx, h.conv, h.frame⟩

theorem DataWf.setCrc (c : Byte) (h : DataWf p x) : DataWf p (x.setCrc c) := ⟨h.rx, h.conv, h.frame⟩

theorem DataWf.emptied (h : DataWf p x) : DataWf p (emptied x) := ⟨rxWf_of_empty rfl rfl rfl rfl, h.conv, h.frame⟩

theorem DataWf.framed (r : Byte) (h : DataWf p x) : DataWf p (framed p r x) :=
  ⟨rxWf_of_empty rfl rfl rfl rfl, h.conv, .inr ⟨rfl, rfl⟩⟩

theorem DataWf.cleared (h : DataWf p x) : DataWf p (cleared x) := ⟨h.rx, .inl ⟨rfl, rfl, rfl, rfl⟩, h.frame⟩

theorem DataWf.converted (raw : Half) (v : BitVec 1) (h : DataWf p x) : DataWf p (converted raw v x) :=
  ⟨h.rx, .inr ⟨rfl, rfl⟩, h.frame⟩

theorem DataWf.push (b : Byte) (h : DataWf p x) : DataWf p (x.push b) := by
  refine ⟨rxWf_push b h.rx, ?_, ?_⟩
  · obtain ⟨hraw, htcc, htf64, htver⟩ := push_sameConversion b x
    rw [ConvWf, hraw, htcc, htf64, htver]
    exact h.conv
  · obtain ⟨-, hb⟩ | ⟨-, hb⟩ | ⟨-, hb⟩ | ⟨-, -, -, hb⟩ := x.push_cases b <;> (rw [hb]; exact h.frame)

theorem DataWf.frameBody (r : Byte) (h : DataWf p x) : DataWf p (frameBody p r x) := by
  obtain ⟨-, hb⟩ | ⟨-, hb⟩ := frameBody_cases p r x <;> rw [hb]
  · exact h.emptied.setCode _
  · exact (h.framed r).setCode _

theorem DataWf.checkBody (r : Byte) (h : DataWf p x) : DataWf p (checkBody p r x) := by
  obtain ⟨-, hb⟩ | ⟨-, -, hb⟩ | ⟨-, -, hb⟩ := checkBody_cases p r x <;> rw [hb]
  · exact h.emptied.setCode _
  · exact (h.framed r).setCode _
  · exact (h.framed r).setCode _

theorem DataWf.readBody (r : Byte) (h : DataWf p x) : DataWf p (readBody p r x) := by
  obtain ⟨-, hb⟩ | ⟨-, hb⟩ | ⟨-, -, hb⟩ | ⟨-, -, -, hb⟩ := readBody_cases p r x <;> rw [hb]
  · exact h.emptied.cleared.setCode _
  · exact h.emptied.cleared.setCode _
  · exact (h.framed r).cleared.setCode _
  · exact ((h.framed r).converted _ _).setCode _

end

theorem exec_keeps_dataWf {i : Instr} {s t : State} (h : exec i s = .next t) (hs : DataWf s.params s.x) :
    DataWf t.params t.x := by
  cases i <;> cases h
  case nop => exact (hs.setLastOp _).setCode _
  case crcInit => exact ((hs.setLastOp _).setCrc _).setCode _
  case crcFeed => exact ((hs.setLastOp _).setCrc _).setCode _
  case frame r => exact (hs.setLastOp _).frameBody r
  case check r => exact (hs.setLastOp _).checkBody r
  case read r => exact (hs.setLastOp _).readBody r
  case convert raw => exact ((hs.setLastOp _).converted raw _).setCode _
  case rxClear => exact (hs.setLastOp _).emptied.setCode _
  case srst => exact .reset s.params
  case illegal => exact (hs.setLastOp _).setCode _
  case rxPush v => exact hs.push (pushedByte v)
  case wr => exact hs
  case rd => exact hs

/-! ### The STATUS part: one lemma per outcome (60_exceptions.md R181) -/

theorem StatusWf.reset : StatusWf Elements.reset := ⟨by decide, by decide⟩

section

variable {p : Params} {x : Elements}

theorem StatusWf.of_cmdErr (hcode : x.code = codeCmdErr) : StatusWf x := by
  constructor <;> simp [OutcomeWf, RecordWf, hcode, codeCmdErr]

/-- The four commands whose success claims nothing about the other elements. -/
theorem StatusWf.of_ok_without_record (hcode : x.code = codeOk)
    (hop : x.lastOp = 0x00#8 ∨ x.lastOp = 0x01#8 ∨ x.lastOp = 0x02#8 ∨ x.lastOp = 0x07#8) : StatusWf x := by
  obtain hop | hop | hop | hop := hop <;> constructor <;> simp [OutcomeWf, RecordWf, hcode, hop, codeOk]

theorem StatusWf.of_frame_ok (hcode : x.code = codeOk) (hop : x.lastOp = 0x03#8) (hcrc : CrcOfFrame x) :
    StatusWf x := by
  constructor
  · simp [OutcomeWf, hcode, hop, codeOk]
  · simpa [RecordWf, hcode, hop, codeOk] using hcrc

theorem StatusWf.of_check_ok (hcode : x.code = codeOk) (hop : x.lastOp = 0x04#8) (hcrc : CrcOfFrame x)
    (hpec : x.crc = x.fpec) : StatusWf x := by
  constructor
  · simp [OutcomeWf, hcode, hop, codeOk]
  · simpa [RecordWf, hcode, hop, codeOk] using And.intro hcrc hpec

theorem StatusWf.of_read_ok (hcode : x.code = codeOk) (hop : x.lastOp = 0x05#8) (hcrc : CrcOfFrame x)
    (hpec : x.crc = x.fpec) (htver : x.tver = 1#1) (hraw : x.raw = rawOf x.fb3 x.fb4) : StatusWf x := by
  constructor
  · simp [OutcomeWf, hcode, hop, codeOk]
  · simpa [RecordWf, hcode, hop, codeOk, htver, hraw, rawOf] using And.intro hcrc hpec

theorem StatusWf.of_convert_ok (hcode : x.code = codeOk) (hop : x.lastOp = 0x06#8) (htver : x.tver = 0#1) :
    StatusWf x := by
  constructor <;> simp [OutcomeWf, RecordWf, hcode, hop, codeOk, htver]

theorem StatusWf.of_pecErr (hcode : x.code = codePecErr)
    (hop : x.lastOp = 0x04#8 ∨ x.lastOp = 0x05#8 ∧ ConversionClear x) (hcrc : CrcOfFrame x) (hpec : x.crc ≠ x.fpec) :
    StatusWf x := by
  obtain hop | ⟨hop, hclear⟩ := hop
  · constructor
    · simp [OutcomeWf, hcode, hop, codePecErr]
    · simpa [RecordWf, hcode, hop, codePecErr] using And.intro hcrc hpec
  · constructor
    · simp [OutcomeWf, hcode, hop, codePecErr]
    · simpa [RecordWf, hcode, hop, codePecErr] using And.intro (And.intro hcrc hpec) hclear

theorem StatusWf.of_lenErr (hcode : x.code = codeLenErr)
    (hop : x.lastOp = 0x03#8 ∨ x.lastOp = 0x04#8 ∨ x.lastOp = 0x05#8 ∧ ConversionClear x) : StatusWf x := by
  obtain hop | hop | ⟨hop, hclear⟩ := hop
  · constructor <;> simp [OutcomeWf, RecordWf, hcode, hop, codeLenErr]
  · constructor <;> simp [OutcomeWf, RecordWf, hcode, hop, codeLenErr]
  · constructor
    · simp [OutcomeWf, hcode, hop, codeLenErr]
    · simpa [RecordWf, hcode, hop, codeLenErr] using hclear

theorem StatusWf.of_regErr (hcode : x.code = codeRegErr) (hop : x.lastOp = 0x05#8) (hclear : ConversionClear x) :
    StatusWf x := by
  constructor
  · simp [OutcomeWf, hcode, hop, codeRegErr]
  · simpa [RecordWf, hcode, hop, codeRegErr] using hclear

/-- The frame path leaves in the accumulator the checksum of the very bytes it records (41_frame_check.md R124). -/
theorem framed_crcOfFrame (p : Params) (r : Byte) (x : Elements) : CrcOfFrame (framed p r x) := rfl

theorem StatusWf.frameBody (r : Byte) (hop : x.lastOp = 0x03#8) : StatusWf (frameBody p r x) := by
  obtain ⟨-, hb⟩ | ⟨-, hb⟩ := frameBody_cases p r x <;> rw [hb]
  · exact .of_lenErr rfl (.inl hop)
  · exact .of_frame_ok rfl hop (framed_crcOfFrame p r x)

theorem StatusWf.checkBody (r : Byte) (hop : x.lastOp = 0x04#8) : StatusWf (checkBody p r x) := by
  obtain ⟨-, hb⟩ | ⟨-, hpec, hb⟩ | ⟨-, hpec, hb⟩ := checkBody_cases p r x <;> rw [hb]
  · exact .of_lenErr rfl (.inr (.inl hop))
  · exact .of_pecErr rfl (.inl hop) (framed_crcOfFrame p r x) hpec
  · exact .of_check_ok rfl hop (framed_crcOfFrame p r x) hpec

theorem StatusWf.readBody (r : Byte) (hop : x.lastOp = 0x05#8) : StatusWf (readBody p r x) := by
  obtain ⟨-, hb⟩ | ⟨-, hb⟩ | ⟨-, hpec, hb⟩ | ⟨-, -, hpec, hb⟩ := readBody_cases p r x <;> rw [hb]
  · exact .of_regErr rfl hop (cleared_conversionClear (emptied x))
  · exact .of_lenErr rfl (.inr (.inr ⟨hop, cleared_conversionClear (emptied x)⟩))
  · exact .of_pecErr rfl (.inr ⟨hop, cleared_conversionClear (framed p r x)⟩) (framed_crcOfFrame p r x) hpec
  · exact .of_read_ok rfl hop (framed_crcOfFrame p r x) hpec rfl rfl

theorem StatusWf.push (b : Byte) (h : StatusWf x) : StatusWf (x.push b) := by
  obtain ⟨-, hb⟩ | ⟨-, hb⟩ | ⟨-, hb⟩ | ⟨-, -, -, hb⟩ := x.push_cases b <;> (rw [hb]; exact ⟨h.outcome, h.record⟩)

end

/-- Every command but SRST sets CODE and LASTOP afresh; the port operations leave them (10_state.md R33). -/
theorem exec_keeps_statusWf {i : Instr} {s t : State} (h : exec i s = .next t) (hs : StatusWf s.x) :
    StatusWf t.x := by
  cases i <;> cases h
  case nop => exact .of_ok_without_record rfl (.inl rfl)
  case crcInit => exact .of_ok_without_record rfl (.inr (.inl rfl))
  case crcFeed => exact .of_ok_without_record rfl (.inr (.inr (.inl rfl)))
  case frame r => exact .frameBody r rfl
  case check r => exact .checkBody r rfl
  case read r => exact .readBody r rfl
  case convert => exact .of_convert_ok rfl rfl rfl
  case rxClear => exact .of_ok_without_record rfl (.inr (.inr (.inr rfl)))
  case srst => exact .reset
  case illegal => exact .of_cmdErr rfl
  case rxPush v => exact hs.push (pushedByte v)
  case wr => exact hs
  case rd => exact hs

/-! ### The invariant -/

/-- Settles O53: both parts hold of the reset elements. -/
theorem resetMeetsInvariant : Obligations.ResetMeetsInvariant := fun p =>
  (machineInv_iff (State.resetWith p)).mpr ⟨.reset p, .reset⟩

/-- Settles O52, by what a step can do to the elements: leave them, reset them, or run an instruction, which keeps the
data part and sets or keeps the STATUS part. -/
theorem everyStepKeepsInvariant : Obligations.EveryStepKeepsInvariant := by
  intro s t hinv hstep
  obtain ⟨hdata, hstatus⟩ := (machineInv_iff s).mp hinv
  refine (machineInv_iff t).mpr ?_
  obtain hx | hx | ⟨a, rest, i, -, -, hexec⟩ := step_elements_cases hstep
  · rw [step_params hstep, hx]
    exact ⟨hdata, hstatus⟩
  · rw [hx]
    exact ⟨.reset t.params, .reset⟩
  · exact ⟨exec_keeps_dataWf hexec hdata, exec_keeps_statusWf hexec hstatus⟩

end Sys2Proof.Machine
end

section
/-! PROOFS. The window and its registers (20_memory.md): what an instruction answers (R68), which accesses change the
core (R69), the receive buffer over a run of pushes (R67), the byte lanes of the window (R64), and O10, O36, O49, O50. -/

namespace Sys2Proof.Machine

open Sys2Proof.Safety Sys2Proof.Statements

/-! ### Completion (20_memory.md R68) -/

/-- Whatever an instruction does, it does to the elements, and it adds one answer that is no error response. -/
theorem exec_eq_answered (i : Instr) (s : State) :
    ∃ x r, exec i s = .next (answered s x r) ∧ ∀ addr, r ≠ .busError addr := by
  cases i with
  | rd reg => exact ⟨s.x, .data (readValue s.params s.x reg), rfl, nofun⟩
  | wr => exact ⟨s.x, .completed, rfl, nofun⟩
  | rxPush v => exact ⟨s.x.push (pushedByte v), .completed, rfl, nofun⟩
  | nop | crcInit | crcFeed | frame | check | read | convert | rxClear | srst | illegal =>
    exact ⟨_, .completed, rfl, nofun⟩

/-- Settles O10: the state with one answer more has the old parameters, reset input and pending events. -/
theorem everyInstructionCompletes : Obligations.EveryInstructionCompletes := by
  intro i s
  obtain ⟨x, r, hexec, hr⟩ := exec_eq_answered i s
  exact ⟨answered s x r, r, hexec, rfl, hr, rfl, rfl, rfl⟩

/-! ### The accesses that change the core (20_memory.md R69) -/

theorem exec_rd (reg : Reg) (s : State) : exec (.rd reg) s = .next (s.answer (.data (readValue s.params s.x reg))) := rfl

theorem exec_wr (reg : Reg) (v : Word) (s : State) : exec (.wr reg v) s = .next (s.answer .completed) := rfl

theorem decodeWrite_of_readOnly {reg : Reg} (v : Word) (hcmd : reg ≠ .cmd) (hrx : reg ≠ .rxByte) :
    decodeWrite reg v = .wr reg v := by
  cases reg
  case cmd => exact absurd rfl hcmd
  case rxByte => exact absurd rfl hrx
  all_goals rfl

/-- An access that is no legal write to CMD or RXBYTE and decodes to an instruction decodes to RD or WR. -/
theorem rd_or_wr_of_decode {base : Nat} {a : Access} {i : Instr} (h : decode base a = .instr i)
    (hcmd : ¬ IsWriteAt base 0x04 a) (hrx : ¬ IsWriteAt base 0x10 a) :
    (∃ reg, i = .rd reg) ∨ ∃ reg v, i = .wr reg v := by
  obtain ⟨hw, hl⟩ := legal_of_decode_eq_instr h
  obtain ⟨reg, rfl⟩ | ⟨reg, v, rfl⟩ := decode_legal hw hl
  · rw [decode_read_access] at h
    exact .inl ⟨reg, (Decoded.instr.inj h).symm⟩
  · have hreg : reg ≠ .cmd ∧ reg ≠ .rxByte :=
      ⟨fun he => hcmd ⟨v, by rw [he]; rfl⟩, fun he => hrx ⟨v, by rw [he]; rfl⟩⟩
    rw [decode_write_access, decodeWrite_of_readOnly v hreg.1 hreg.2] at h
    exact .inr ⟨reg, v, (Decoded.instr.inj h).symm⟩

/-- The step of a pending access is a BusError, which changes no element, or the decoded instruction. -/
theorem step_access_next_cases {s t : State} {a : Access} {rest : List HostEvent}
    (hp : s.pending = .access a :: rest) (h : step s = .next t) :
    t.x = s.x ∨ ∃ i, decode s.params.base a = .instr i ∧ exec i { s with pending := rest } = .next t := by
  obtain ⟨hp', -⟩ | ⟨_, hp', -⟩ | ⟨_, hp', -⟩ | ⟨_, _, -, -, -, rfl⟩ | ⟨_, _, i, hp', -, hd, hexec⟩ :=
    step_next_cases h
  · rw [hp] at hp'; cases hp'
  · rw [hp] at hp'; cases hp'
  · rw [hp] at hp'; cases hp'
  · exact .inl rfl
  · rw [hp] at hp'
    cases hp'
    exact .inr ⟨i, hd, hexec⟩

theorem step_keeps_elements_of_other_access {s t : State} {a : Access} {rest : List HostEvent}
    (hp : s.pending = .access a :: rest) (h : step s = .next t) (hcmd : ¬ IsWriteAt s.params.base 0x04 a)
    (hrx : ¬ IsWriteAt s.params.base 0x10 a) : t.x = s.x := by
  obtain hx | ⟨i, hd, hexec⟩ := step_access_next_cases hp h
  · exact hx
  · obtain ⟨reg, rfl⟩ | ⟨reg, v, rfl⟩ := rd_or_wr_of_decode hd hcmd hrx
    · rw [exec_rd] at hexec
      cases hexec
      rfl
    · rw [exec_wr] at hexec
      cases hexec
      rfl

/-- A read leaves what it reads, so the next read of the register answers the same. -/
theorem exec_rd_twice {reg : Reg} {s t u : State} (h : exec (.rd reg) s = .next t) (h' : exec (.rd reg) t = .next u) :
    u.x = s.x ∧ u.replies = s.replies ++ [.data (readValue s.params s.x reg), .data (readValue s.params s.x reg)] := by
  rw [exec_rd] at h h'
  cases h
  cases h'
  exact ⟨rfl, by simp⟩

/-- Settles O49. For the writes that are not idempotent: from reset, two pushes make the count 1 and then 2, and two
feeds of 0x01 make the accumulator 0x07 and then 0x12. -/
theorem onlyCmdAndRxByteWritesChangeState : Obligations.OnlyCmdAndRxByteWritesChangeState := by
  refine ⟨fun _ _ _ _ => step_keeps_elements_of_other_access, ?_, ?_, ?_⟩
  · intro reg s t u h h'
    obtain ⟨hx, hreplies⟩ := exec_rd_twice h h'
    exact ⟨hx, _, hreplies⟩
  · exact ⟨0#32, State.reset, _, _, rfl, rfl, by decide, by decide⟩
  · exact ⟨0x01#8, State.reset, _, _, rfl, rfl, by decide, by decide⟩

/-! ### The receive buffer over a run of pushes (20_memory.md R67) -/

/-- The elements after RXPUSH of each of the words, first word first. -/
def Elements.pushAll (x : Elements) (vs : List Word) : Elements := vs.foldl (fun y v => y.push (pushedByte v)) x

@[simp] theorem Elements.pushAll_nil (x : Elements) : x.pushAll [] = x := rfl

@[simp] theorem Elements.pushAll_cons (x : Elements) (v : Word) (vs : List Word) :
    x.pushAll (v :: vs) = (x.push (pushedByte v)).pushAll vs := rfl

/-- A full buffer stays as it is. -/
theorem Elements.pushAll_of_overflowed {x : Elements} (h : x.rxCnt = 4#3) (vs : List Word) : x.pushAll vs = x := by
  induction vs with
  | nil => rfl
  | cons v vs ih =>
    have hpush : x.push (pushedByte v) = x := by
      rw [x.push_overflow _ (by simp [h]) (by simp [h]) (by simp [h]), ← h]
    rw [pushAll_cons, hpush, ih]

theorem pushedByte_eq_setWidth (v : Word) : pushedByte v = v.setWidth 8 :=
  (BitVec.setWidth_eq_extractLsb' (by decide)).symm

/-- Slot k of a buffer that was empty holds the (k+1)-th byte pushed, and the count saturates at 4. -/
theorem Elements.pushAll_of_empty {x : Elements} (hcnt : x.rxCnt = 0#3) (h0 : x.rx0 = 0x00#8) (h1 : x.rx1 = 0x00#8)
    (h2 : x.rx2 = 0x00#8) (vs : List Word) :
    x.pushAll vs = { x with
      rx0 := ((vs[0]?).map (·.setWidth 8)).getD 0x00#8
      rx1 := ((vs[1]?).map (·.setWidth 8)).getD 0x00#8
      rx2 := ((vs[2]?).map (·.setWidth 8)).getD 0x00#8
      rxCnt := BitVec.ofNat 3 (min vs.length 4) } := by
  obtain ⟨⟩ := x
  subst hcnt h0 h1 h2
  match vs with
  | [] => rfl
  | [v] => simp [push_onto_empty, pushedByte_eq_setWidth]
  | [v, w] => simp [push_onto_empty, push_onto_one, pushedByte_eq_setWidth]
  | [v, w, z] => simp [push_onto_empty, push_onto_one, push_onto_two, pushedByte_eq_setWidth]
  | v :: w :: z :: y :: rest =>
    simp [push_onto_empty, push_onto_one, push_onto_two, push_overflow, pushAll_of_overflowed, pushedByte_eq_setWidth]

@[simp] theorem pushes_nil (base : Nat) : pushes base [] = [] := rfl

@[simp] theorem pushes_cons (base : Nat) (v : Word) (vs : List Word) :
    pushes base (v :: vs) = .access (encode base (.rxPush v)) :: pushes base vs := rfl

theorem decode_encode_rxPush (base : Nat) (v : Word) : decode base (encode base (.rxPush v)) = .instr (.rxPush v) :=
  decode_write_access base .rxByte v

theorem step_of_pending_rxPush {s : State} {v : Word} {rest : List HostEvent} (hline : s.resetLine = false)
    (hp : s.pending = .access (encode s.params.base (.rxPush v)) :: rest) :
    step s = .next { s with
      x := s.x.push (pushedByte v), pending := rest, replies := s.replies ++ [.completed] } := by
  rw [step_of_access hp hline]
  exact hostAccess_of_instr (s := { s with pending := rest }) (decode_encode_rxPush s.params.base v)

/-- A run over pending pushes does them all, whatever the host has pending after them. -/
theorem run_of_pending_pushes {s : State} {vs : List Word} {rest : List HostEvent} (hline : s.resetLine = false)
    (hp : s.pending = pushes s.params.base vs ++ rest) :
    run vs.length s = .next { s with
      x := s.x.pushAll vs, pending := rest, replies := s.replies ++ List.replicate vs.length .completed } := by
  induction vs generalizing s with
  | nil =>
    obtain ⟨⟩ := s
    subst hp
    simp
  | cons v vs ih =>
    have hstep := step_of_pending_rxPush (rest := pushes s.params.base vs ++ rest) hline hp
    rw [List.length_cons, run_succ_of_next vs.length hstep, ih]
    · simp [List.replicate_succ]
    · exact hline
    · rfl

/-- Settles O36: the run does all the pushes, and the buffer it started from was empty. -/
theorem receiveBufferKeepsArrivalOrder : Obligations.ReceiveBufferKeepsArrivalOrder := by
  intro s vs hline hcnt h0 h1 h2 hp
  exact ⟨_, run_of_pending_pushes (rest := []) hline (by rw [hp, List.append_nil]), rfl,
    Elements.pushAll_of_empty hcnt h0 h1 h2 vs⟩

/-! ### Byte lanes of the window (20_memory.md R64) -/

/-- The model's offsets are those of the register map (10_state.md R24). -/
theorem offset_toNat_eq_offsetInMap (reg : Reg) : reg.offset.toNat = offsetInMap reg := by cases reg <;> rfl

/-- Byte `k` of the four at a register's offset is lane `k` of that register. -/
theorem windowByte_of_register (s : State) (reg : Reg) {k : Nat} (hk : k < 4) :
    windowByte s (s.params.base + offsetInMap reg + k)
      = some ((readValue s.params s.x reg).extractLsb' (8 * k) 8) := by
  have haligned := reg.offset_mod_four
  have hreg := Reg.atOffset_offset reg
  rw [offset_toNat_eq_offsetInMap] at haligned hreg
  have hoff : s.params.base + offsetInMap reg + k - s.params.base = offsetInMap reg + k := by omega
  have hword : (offsetInMap reg + k) / 4 * 4 = offsetInMap reg := by omega
  have hlane : (offsetInMap reg + k) % 4 = k := by omega
  rw [windowByte, if_pos (by omega), hoff, hword, hlane, hreg, Option.map_some]

/-- Settles O50: the window shows lane `k`, and taking the lane is division by `2 ^ (8k)` and the remainder by 256. -/
theorem windowBytesAreLittleEndian : Obligations.WindowBytesAreLittleEndian := by
  intro s reg k hk
  refine ⟨_, windowByte_of_register s reg hk, ?_⟩
  rw [BitVec.extractLsb'_toNat, Nat.shiftRight_eq_div_pow]

end Sys2Proof.Machine
end

section
/-! PROOFS. The encoding (30_encoding.md): command words by their fields, the opcode map as match and mask, the decoder
and the encoder as inverses, the assembler's lines, and O1, O2, O3, O4, O6, O7, O9. -/

namespace Sys2Proof.Machine

open Sys2Proof.Statements

/-! ### Command words by their fields (30_encoding.md R80) -/

theorem cmdOp_and (v w : Word) : cmdOp (v &&& w) = cmdOp v &&& cmdOp w := BitVec.extractLsb'_and

theorem cmdArg8_and (v w : Word) : cmdArg8 (v &&& w) = cmdArg8 v &&& cmdArg8 w := BitVec.extractLsb'_and

theorem cmdArg16_and (v w : Word) : cmdArg16 (v &&& w) = cmdArg16 v &&& cmdArg16 w := BitVec.extractLsb'_and

theorem eq_commandWord_iff {w : Word} {op arg8 : Byte} {arg16 : Half} :
    w = commandWord op arg8 arg16 ↔ cmdOp w = op ∧ cmdArg8 w = arg8 ∧ cmdArg16 w = arg16 := by
  constructor
  · rintro rfl
    simp
  · rintro ⟨rfl, rfl, rfl⟩
    exact (commandWord_fields w).symm

theorem commandWord_toNat (op arg8 : Byte) (arg16 : Half) :
    (commandWord op arg8 arg16).toNat = arg16.toNat * 2 ^ 16 + (arg8.toNat * 2 ^ 8 + op.toNat) := by
  have hop : (op.zeroExtend 32).toNat = op.toNat := toNat_zeroExtend_of_le op (by decide)
  have h8 : (arg8.zeroExtend 32).toNat = arg8.toNat := toNat_zeroExtend_of_le arg8 (by decide)
  have h16 : (arg16.zeroExtend 32).toNat = arg16.toNat := toNat_zeroExtend_of_le arg16 (by decide)
  have hlow : ((arg8.zeroExtend 32 <<< 8) ||| op.zeroExtend 32).toNat = arg8.toNat * 2 ^ 8 + op.toNat := by
    rw [toNat_shiftLeft_or _ _ 8 (by omega) (by omega), h8, hop]
  rw [commandWord, BitVec.or_assoc, toNat_shiftLeft_or _ _ 16 (by omega) (by omega), h16, hlow]

/-! ### The opcode map (30_encoding.md R83, R84) -/

/-- The rows of the map, field by field: every row fixes OP, and an argument field is free or fixed to 0. -/
theorem opcodeMap_eq_fields :
    opcodeMap =
      [ ⟨"NOP",      commandWord 0x00#8 0#8 0#16, commandWord (.allOnes 8) (.allOnes 8) (.allOnes 16)⟩,
        ⟨"CRC.INIT", commandWord 0x01#8 0#8 0#16, commandWord (.allOnes 8) (.allOnes 8) (.allOnes 16)⟩,
        ⟨"CRC.FEED", commandWord 0x02#8 0#8 0#16, commandWord (.allOnes 8) 0#8 (.allOnes 16)⟩,
        ⟨"FRAME",    commandWord 0x03#8 0#8 0#16, commandWord (.allOnes 8) 0#8 (.allOnes 16)⟩,
        ⟨"CHECK",    commandWord 0x04#8 0#8 0#16, commandWord (.allOnes 8) 0#8 (.allOnes 16)⟩,
        ⟨"READ",     commandWord 0x05#8 0#8 0#16, commandWord (.allOnes 8) 0#8 (.allOnes 16)⟩,
        ⟨"CONVERT",  commandWord 0x06#8 0#8 0#16, commandWord (.allOnes 8) (.allOnes 8) 0#16⟩,
        ⟨"RX.CLEAR", commandWord 0x07#8 0#8 0#16, commandWord (.allOnes 8) (.allOnes 8) (.allOnes 16)⟩,
        ⟨"SRST",     commandWord 0x08#8 0#8 0#16, commandWord (.allOnes 8) (.allOnes 8) (.allOnes 16)⟩ ] := by
  decide

/-- A word matches a row field by field. -/
theorem and_commandWord_eq_iff {w : Word} {m8 : Byte} {m16 : Half} {op : Byte} :
    w &&& commandWord (.allOnes 8) m8 m16 = commandWord op 0#8 0#16
      ↔ cmdOp w = op ∧ cmdArg8 w &&& m8 = 0#8 ∧ cmdArg16 w &&& m16 = 0#16 := by
  rw [eq_commandWord_iff, cmdOp_and, cmdArg8_and, cmdArg16_and, cmdOp_commandWord, cmdArg8_commandWord,
    cmdArg16_commandWord, BitVec.and_allOnes]

/-- The predicate of R86 and the map of R83 say the same of every word: field by field they are the same nine cases, by
format in the one and by opcode in the other. -/
theorem commandLegal_eq_matchesSomeRow (w : Word) : commandLegal w = matchesSomeRow w := by
  rw [Bool.eq_iff_iff]
  simp only [matchesSomeRow, opcodeMap_eq_fields, List.any_cons, List.any_nil, OpRow.selects, Bool.or_eq_true,
    beq_iff_eq, and_commandWord_eq_iff, BitVec.and_allOnes, BitVec.and_zero, true_and, and_true, commandLegal,
    Bool.and_eq_true, decide_eq_true_eq, List.mem_cons, List.not_mem_nil, or_false, Bool.false_eq_true]
  grind

theorem cmdOp_of_row_matches {w : Word} {r : OpRow} (hr : r ∈ opcodeMap) (h : w &&& r.mask = r.pattern) :
    cmdOp w = cmdOp r.pattern := by
  have hmask : cmdOp r.mask = .allOnes 8 := (by decide : ∀ r ∈ opcodeMap, cmdOp r.mask = .allOnes 8) r hr
  rw [← h, cmdOp_and, hmask, BitVec.and_allOnes]

theorem row_eq_of_cmdOp_eq :
    ∀ r ∈ opcodeMap, ∀ r' ∈ opcodeMap, cmdOp r.pattern = cmdOp r'.pattern → r = r' := by decide

/-- Settles O4: every row fixes the whole OP field, and no two rows fix it to the same opcode. -/
theorem atMostOneOpcodeRowMatches : Obligations.AtMostOneOpcodeRowMatches := by
  intro w r r' hr hr' h h'
  exact row_eq_of_cmdOp_eq r hr r' hr' ((cmdOp_of_row_matches hr h).symm.trans (cmdOp_of_row_matches hr' h'))

/-! ### The command decoder (30_encoding.md R86) -/

@[simp] theorem decodeCommand_nop : decodeCommand (commandWord 0x00#8 0#8 0#16) = .nop := by decide

@[simp] theorem decodeCommand_crcInit : decodeCommand (commandWord 0x01#8 0#8 0#16) = .crcInit := by decide

@[simp] theorem decodeCommand_crcFeed (b : Byte) : decodeCommand (commandWord 0x02#8 b 0#16) = .crcFeed b := by
  simp [decodeCommand, commandLegal]

@[simp] theorem decodeCommand_frame (r : Byte) : decodeCommand (commandWord 0x03#8 r 0#16) = .frame r := by
  simp [decodeCommand, commandLegal]

@[simp] theorem decodeCommand_check (r : Byte) : decodeCommand (commandWord 0x04#8 r 0#16) = .check r := by
  simp [decodeCommand, commandLegal]

@[simp] theorem decodeCommand_read (r : Byte) : decodeCommand (commandWord 0x05#8 r 0#16) = .read r := by
  simp [decodeCommand, commandLegal]

@[simp] theorem decodeCommand_convert (h : Half) : decodeCommand (commandWord 0x06#8 0#8 h) = .convert h := by
  simp [decodeCommand, commandLegal]

@[simp] theorem decodeCommand_rxClear : decodeCommand (commandWord 0x07#8 0#8 0#16) = .rxClear := by decide

@[simp] theorem decodeCommand_srst : decodeCommand (commandWord 0x08#8 0#8 0#16) = .srst := by decide

theorem decodeCommand_of_not_legal {w : Word} (h : commandLegal w = false) : decodeCommand w = .illegal w :=
  if_neg (by simp [h])

/-- The legal words, by the three formats of R81. -/
theorem commandLegal_cases {w : Word} (h : commandLegal w = true) :
    (∃ op ∈ [0x00#8, 0x01#8, 0x07#8, 0x08#8], w = commandWord op 0#8 0#16)
      ∨ (∃ op ∈ [0x02#8, 0x03#8, 0x04#8, 0x05#8], ∃ b, w = commandWord op b 0#16)
      ∨ ∃ h, w = commandWord 0x06#8 0#8 h := by
  simp only [commandLegal, Bool.or_eq_true, Bool.and_eq_true, decide_eq_true_eq, beq_iff_eq] at h
  obtain (⟨⟨hop, h8⟩, h16⟩ | ⟨hop, h16⟩) | ⟨hop, h8⟩ := h
  · exact .inl ⟨cmdOp w, hop, eq_commandWord_iff.mpr ⟨rfl, h8, h16⟩⟩
  · exact .inr (.inl ⟨cmdOp w, hop, cmdArg8 w, eq_commandWord_iff.mpr ⟨rfl, rfl, h16⟩⟩)
  · exact .inr (.inr ⟨cmdArg16 w, eq_commandWord_iff.mpr ⟨hop, h8, rfl⟩⟩)

/-- The decoder reads every bit of a command word: the instruction it answers has the word as its encoding. -/
theorem decodeCommand_encodes (w : Word) :
    (decodeCommand w).wellFormed = true ∧ (decodeCommand w).triple = .wr Reg.cmd.offset w := by
  cases hlegal : commandLegal w with
  | false =>
    rw [decodeCommand_of_not_legal hlegal]
    exact ⟨by rw [Instr.wellFormed, ← commandLegal_eq_matchesSomeRow, hlegal, Bool.not_false], rfl⟩
  | true =>
    obtain ⟨op, hop, rfl⟩ | ⟨op, hop, b, rfl⟩ | ⟨h, rfl⟩ := commandLegal_cases hlegal
    · fin_cases hop <;> exact ⟨by simp [Instr.wellFormed], by simp [Instr.triple]⟩
    · fin_cases hop <;> exact ⟨by simp [Instr.wellFormed], by simp [Instr.triple]⟩
    · rw [decodeCommand_convert]
      exact ⟨rfl, rfl⟩

/-! ### The decoder and the encoder are inverses (30_encoding.md R80 to R89) -/

theorem decodeWrite_encodes (reg : Reg) (v : Word) :
    (decodeWrite reg v).wellFormed = true ∧ (decodeWrite reg v).triple = .wr reg.offset v := by
  cases reg
  case cmd => exact decodeCommand_encodes v
  all_goals exact ⟨rfl, rfl⟩

/-- Settles O2: a decoded access is a read or a write of one register, and what it decodes to encodes it. -/
theorem encodeInvertsDecode : Obligations.EncodeInvertsDecode := by
  intro base a i h
  obtain ⟨hw, hl⟩ := legal_of_decode_eq_instr h
  obtain ⟨reg, rfl⟩ | ⟨reg, v, rfl⟩ := decode_legal hw hl
  · rw [decode_read_access] at h
    cases h
    exact ⟨rfl, rfl⟩
  · rw [decode_write_access] at h
    cases h
    obtain ⟨hwf, htriple⟩ := decodeWrite_encodes reg v
    exact ⟨hwf, by rw [encode, htriple]⟩

/-- An instruction whose triple is a write decodes back when the write's word does. -/
theorem decode_encode_of_write {i : Instr} {reg : Reg} {v : Word} (base : Nat) (htriple : i.triple = .wr reg.offset v)
    (hdecode : decodeWrite reg v = i) : decode base (encode base i) = .instr i := by
  rw [encode, htriple, decode_write_access, hdecode]

theorem decodeCommand_of_illegal_wellFormed {w : Word} (h : (Instr.illegal w).wellFormed = true) :
    decodeCommand w = .illegal w := by
  apply decodeCommand_of_not_legal
  rw [commandLegal_eq_matchesSomeRow]
  simpa [Instr.wellFormed] using h

theorem decodeWrite_of_wr_wellFormed {reg : Reg} {v : Word} (h : (Instr.wr reg v).wellFormed = true) :
    decodeWrite reg v = .wr reg v := by
  have hreg : reg ≠ .cmd ∧ reg ≠ .rxByte := by simpa [Instr.wellFormed] using h
  exact decodeWrite_of_readOnly v hreg.1 hreg.2

theorem decode_encode {i : Instr} (base : Nat) (hwf : i.wellFormed = true) :
    decode base (encode base i) = .instr i := by
  cases i with
  | nop => exact decode_encode_of_write base rfl decodeCommand_nop
  | crcInit => exact decode_encode_of_write base rfl decodeCommand_crcInit
  | crcFeed b => exact decode_encode_of_write base rfl (decodeCommand_crcFeed b)
  | frame r => exact decode_encode_of_write base rfl (decodeCommand_frame r)
  | check r => exact decode_encode_of_write base rfl (decodeCommand_check r)
  | read r => exact decode_encode_of_write base rfl (decodeCommand_read r)
  | convert h => exact decode_encode_of_write base rfl (decodeCommand_convert h)
  | rxClear => exact decode_encode_of_write base rfl decodeCommand_rxClear
  | srst => exact decode_encode_of_write base rfl decodeCommand_srst
  | illegal w => exact decode_encode_of_write base rfl (decodeCommand_of_illegal_wellFormed hwf)
  | rxPush v => exact decode_encode_rxPush base v
  | wr reg v => exact decode_encode_of_write base rfl (decodeWrite_of_wr_wellFormed hwf)
  | rd reg => exact decode_read_access base reg

/-- Settles O1, one case per instruction: the word of its encoding decodes to it. -/
theorem decodeInvertsEncode : Obligations.DecodeInvertsEncode := fun base _ => decode_encode base

/-- Settles O6: closed words and accesses, through both levels of the decoder. -/
theorem sampleWordsDecode : Obligations.SampleWordsDecode := by
  unfold Obligations.SampleWordsDecode
  decide

/-! ### The assembler table (30_encoding.md R89) -/

theorem commandWord_of_byte (op b : Byte) :
    commandWord op b 0#16 = (b.setWidth 32 <<< 8) ||| op.setWidth 32 := by simp [commandWord]

theorem commandWord_of_half (op : Byte) (h : Half) :
    commandWord op 0#8 h = (h.setWidth 32 <<< 16) ||| op.setWidth 32 := by simp [commandWord]

theorem encode_of_write {i : Instr} {reg : Reg} {v w : Word} (base : Nat) (htriple : i.triple = .wr reg.offset v)
    (hword : v = w) : encode base i = .write (base + offsetInMap reg) 4 0xF#4 w := by
  rw [encode, htriple, hword, Triple.access, offset_toNat_eq_offsetInMap]

theorem encode_rd (base : Nat) (reg : Reg) : encode base (.rd reg) = .read (base + offsetInMap reg) 4 := by
  rw [encode, Instr.triple, Triple.access, offset_toNat_eq_offsetInMap]

/-- Settles O3: the offset of a register is the map's, and the word of a command is its fields put side by side. -/
theorem encodingsFollowTheAssemblerTable : Obligations.EncodingsFollowTheAssemblerTable := by
  intro base b h v reg
  exact ⟨rfl, rfl, encode_of_write (reg := .cmd) base rfl (commandWord_of_byte 0x02#8 b),
    encode_of_write (reg := .cmd) base rfl (commandWord_of_byte 0x03#8 b),
    encode_of_write (reg := .cmd) base rfl (commandWord_of_byte 0x04#8 b),
    encode_of_write (reg := .cmd) base rfl (commandWord_of_byte 0x05#8 b),
    encode_of_write (reg := .cmd) base rfl (commandWord_of_half 0x06#8 h),
    rfl, rfl, rfl, rfl, encode_of_write base rfl rfl, encode_rd base reg⟩

/-! ### A placed command word (log 4) -/

theorem tableTriple_of_command (w : Word) : tableTriple 32 w.toNat = some (.wr Reg.cmd.offset w) := by
  simp [tableTriple, w.isLt]

theorem withFetchWord_of_command (s : State) (w : Word) :
    s.withFetchWord 32 w.toNat = s.placeAccess ((Triple.wr Reg.cmd.offset w).access s.params.base) := by
  rw [State.withFetchWord, tableTriple_of_command]

/-- With reset released, the step after placing an access is that access. -/
theorem step_placeAccess {s : State} (a : Access) (hline : s.resetLine = false) :
    step (s.placeAccess a) = hostAccess a s := by
  rw [step_of_access (State.placeAccess_pending a s) (State.placeAccess_resetLine a s), State.placeAccess, ← hline]

/-- Settles O9: the placed access is a write of the word to CMD. -/
theorem placedCommandWordRunsNext : Obligations.PlacedCommandWordRunsNext := by
  intro s w hline
  rw [withFetchWord_of_command, step_placeAccess _ hline]
  exact hostAccess_of_instr (decode_write_access s.params.base .cmd w)

/-! ### One assembler line (30_encoding.md R89) -/

/-- A line that assembles to the triples of well-formed instructions decodes to those instructions. -/
theorem decodedLine_of_assemble {line : AsmLine} {is : List Instr} (base : Nat)
    (h : assemble line = some (is.map Instr.triple)) (hwf : ∀ i ∈ is, i.wellFormed = true) :
    decodedLine base line = some (is.map .instr) := by
  have hdecode : ∀ i ∈ is, decode base (i.triple.access base) = .instr i := fun i hi => decode_encode base (hwf i hi)
  rw [decodedLine, h, Option.map_some, List.map_map]
  exact congrArg some (List.map_congr_left hdecode)

theorem decodedLine_of_assemble_one {line : AsmLine} {i : Instr} (base : Nat) (h : assemble line = some [i.triple])
    (hwf : i.wellFormed = true) : decodedLine base line = some [.instr i] :=
  decodedLine_of_assemble (is := [i]) base h (by simpa using hwf)

theorem ofNat_eq_commandWord_of_byte {op b : Nat} (hop : op < 0x100) (hb : b < 0x100) :
    BitVec.ofNat 32 (b * 2 ^ 8 + op) = commandWord (BitVec.ofNat 8 op) (BitVec.ofNat 8 b) 0#16 := by
  apply BitVec.eq_of_toNat_eq
  rw [commandWord_toNat]
  simp only [BitVec.toNat_ofNat]
  omega

theorem ofNat_eq_commandWord_of_half (h : Nat) {op : Nat} (hop : op < 0x100) :
    BitVec.ofNat 32 (h * 2 ^ 16 + op) = commandWord (BitVec.ofNat 8 op) 0#8 (BitVec.ofNat 16 h) := by
  apply BitVec.eq_of_toNat_eq
  rw [commandWord_toNat]
  simp only [BitVec.toNat_ofNat]
  omega

theorem asmByteCommand_of_lt {op b : Nat} (hop : op < 0x100) (hb : b < 0x100) :
    asmByteCommand op b = some [.wr Reg.cmd.offset (commandWord (BitVec.ofNat 8 op) (BitVec.ofNat 8 b) 0#16)] := by
  rw [asmByteCommand, asmWrite_of_lt _ _ hb, ofNat_eq_commandWord_of_byte hop hb]

@[simp] theorem asmByteCommand_eq_none_iff (op b : Nat) : asmByteCommand op b = none ↔ 0x100 ≤ b :=
  asmWrite_eq_none_iff ..

theorem asmRxPush_of_lt {b : Nat} (hb : b < 0x100) :
    asmRxPush b = some [.wr Reg.rxByte.offset (BitVec.ofNat 32 b)] :=
  asmWrite_of_lt _ _ hb

@[simp] theorem asmRxPush_eq_none_iff (b : Nat) : asmRxPush b = none ↔ 0x100 ≤ b := asmWrite_eq_none_iff ..

theorem decodedLine_of_byte_operand (base : Nat) {b : Nat} (hb : b < 0x100) :
    decodedLine base (.crcFeed b) = some [.instr (.crcFeed (BitVec.ofNat 8 b))]
      ∧ decodedLine base (.frame b) = some [.instr (.frame (BitVec.ofNat 8 b))]
      ∧ decodedLine base (.check b) = some [.instr (.check (BitVec.ofNat 8 b))]
      ∧ decodedLine base (.read b) = some [.instr (.read (BitVec.ofNat 8 b))]
      ∧ decodedLine base (.rxPush b) = some [.instr (.rxPush (BitVec.ofNat 32 b))] :=
  ⟨decodedLine_of_assemble_one base (asmByteCommand_of_lt (by decide) hb) rfl,
    decodedLine_of_assemble_one base (asmByteCommand_of_lt (by decide) hb) rfl,
    decodedLine_of_assemble_one base (asmByteCommand_of_lt (by decide) hb) rfl,
    decodedLine_of_assemble_one base (asmByteCommand_of_lt (by decide) hb) rfl,
    decodedLine_of_assemble_one base (asmRxPush_of_lt hb) rfl⟩

theorem decodedLine_convert (base : Nat) {h : Nat} (hh : h < 0x10000) :
    decodedLine base (.convert h) = some [.instr (.convert (BitVec.ofNat 16 h))] := by
  refine decodedLine_of_assemble_one base ?_ rfl
  rw [assemble, asmWrite_of_lt _ _ hh, ofNat_eq_commandWord_of_half h (by decide)]
  rfl

theorem offset_eq_ofNat_offsetInMap (reg : Reg) : reg.offset = BitVec.ofNat 6 (offsetInMap reg) := by
  rw [← offset_toNat_eq_offsetInMap, BitVec.ofNat_toNat, BitVec.setWidth_eq]

theorem assemble_wr (reg : Reg) {v : Nat} (hv : v < 2 ^ 32) :
    assemble (.wr reg v) = some [.wr (BitVec.ofNat 6 (offsetInMap reg)) (BitVec.ofNat 32 v)] := by
  rw [assemble, asmWrite_of_lt reg v hv, offset_eq_ofNat_offsetInMap]

theorem assemble_rd (reg : Reg) : assemble (.rd reg) = some [.rd (BitVec.ofNat 6 (offsetInMap reg))] := by
  rw [assemble, offset_eq_ofNat_offsetInMap]

/-! ### Pseudo-instructions (30_encoding.md R90) -/

theorem asmJoin_singleton (piece : Option (List Triple)) : asmJoin [piece] = piece := by
  cases piece <;> simp [asmJoin_cons]

/-- A joined piece may be joined in place. -/
theorem asmJoin_asmJoin_cons (front back : List (Option (List Triple))) :
    asmJoin (asmJoin front :: back) = asmJoin (front ++ back) := by
  rw [asmJoin_append, asmJoin_cons, asmJoin_cons, asmJoin_singleton]

/-- The statements' lines in order are the assembler's pieces joined. -/
theorem linesInOrder_eq_asmJoin (lines : List AsmLine) : linesInOrder lines = asmJoin (lines.map assemble) := by
  induction lines with
  | nil => rfl
  | cons line rest ih =>
    rw [List.map_cons, asmJoin_cons, ← ih, linesInOrder, linesInOrder, List.mapM_cons]
    cases assemble line with
    | none => rfl
    | some ts => cases rest.mapM assemble <;> rfl

theorem assemble_rxLoad_eq_none_iff (b0 b1 b2 : Nat) :
    assemble (.rxLoad b0 b1 b2) = none ↔ 0x100 ≤ b0 ∨ 0x100 ≤ b1 ∨ 0x100 ≤ b2 := by
  simp [assemble, asmJoin_eq_none_iff, eq_comm (a := none)]

theorem assemble_crcBytes_eq_linesInOrder (bs : List Nat) :
    assemble (.crcBytes bs) = linesInOrder (.crcInit :: bs.map .crcFeed) := by
  rw [linesInOrder_eq_asmJoin, List.map_cons, List.map_map]
  rfl

theorem assemble_crcBytes_eq_none_iff (bs : List Nat) :
    assemble (.crcBytes bs) = none ↔ ∃ b ∈ bs, 0x100 ≤ b := by
  simp [assemble, asmJoin_eq_none_iff, eq_comm (a := none)]

theorem assemble_crcBytes_of_lt {bs : List Nat} (hbs : ∀ b ∈ bs, b < 0x100) :
    assemble (.crcBytes bs)
      = some ((Instr.crcInit :: bs.map fun b => .crcFeed (BitVec.ofNat 8 b)).map Instr.triple) := by
  have hfeeds : bs.map (asmByteCommand 0x02)
      = (bs.map fun b => [(Instr.crcFeed (BitVec.ofNat 8 b)).triple]).map some := by
    rw [List.map_map]
    exact List.map_congr_left fun b hb => asmByteCommand_of_lt (by decide) (hbs b hb)
  rw [assemble, hfeeds, asmWrite_of_lt _ _ (by decide), asmJoin_cons_some, asmJoin_map_some, Option.map_some,
    List.map_cons, List.map_map, ← List.flatMap_def, List.map_eq_flatMap]
  rfl

theorem decodedLine_crcBytes (base : Nat) {bs : List Nat} (hbs : ∀ b ∈ bs, b < 0x100) :
    decodedLine base (.crcBytes bs)
      = some (.instr .crcInit :: bs.map fun b => .instr (.crcFeed (BitVec.ofNat 8 b))) := by
  rw [decodedLine_of_assemble base (assemble_crcBytes_of_lt hbs) (by simp [Instr.wellFormed]), List.map_cons,
    List.map_map]
  rfl

theorem assemble_readTemp_eq_linesInOrder (r b0 b1 b2 : Nat) :
    assemble (.readTemp r b0 b1 b2) = linesInOrder [.rxLoad b0 b1 b2, .read r, .rd .status] := by
  rw [linesInOrder_eq_asmJoin]
  exact (asmJoin_asmJoin_cons [asmRxPush b0, asmRxPush b1, asmRxPush b2] _).symm

theorem assemble_readTemp_eq_none_iff (r b0 b1 b2 : Nat) :
    assemble (.readTemp r b0 b1 b2) = none ↔ 0x100 ≤ r ∨ 0x100 ≤ b0 ∨ 0x100 ≤ b1 ∨ 0x100 ≤ b2 := by
  simp only [assemble, asmJoin_eq_none_iff, List.mem_cons, List.not_mem_nil, eq_comm (a := none), reduceCtorEq,
    asmRxPush_eq_none_iff, asmByteCommand_eq_none_iff, or_false]
  omega

theorem assemble_readTemp_of_lt {r b0 b1 b2 : Nat} (hr : r < 0x100) (h0 : b0 < 0x100) (h1 : b1 < 0x100)
    (h2 : b2 < 0x100) :
    assemble (.readTemp r b0 b1 b2)
      = some [.wr 0x10#6 (BitVec.ofNat 32 b0), .wr 0x10#6 (BitVec.ofNat 32 b1), .wr 0x10#6 (BitVec.ofNat 32 b2),
          .wr 0x04#6 (BitVec.ofNat 32 (r * 256 + 5)), .rd 0x08#6] := by
  rw [assemble, asmRxPush_of_lt h0, asmRxPush_of_lt h1, asmRxPush_of_lt h2, asmByteCommand, asmWrite_of_lt _ _ hr]
  rfl

/-- Settles O7, one clause after the other: what a line gives in range, its error, and the pseudo-instructions. -/
theorem assembledLinesDecode : Obligations.AssembledLinesDecode := by
  refine ⟨fun base => ?_, fun base b => decodedLine_of_byte_operand base, fun base h => decodedLine_convert base,
    fun reg v => assemble_wr reg, fun base reg => ⟨assemble_rd reg, ?_⟩, fun b hb => ?_,
    fun h => (asmWrite_eq_none_iff ..).mpr, fun reg v => (asmWrite_eq_none_iff ..).mpr,
    fun b0 b1 b2 => ⟨(linesInOrder_eq_asmJoin [.rxPush b0, .rxPush b1, .rxPush b2]).symm,
      assemble_rxLoad_eq_none_iff b0 b1 b2⟩,
    fun bs => ⟨assemble_crcBytes_eq_linesInOrder bs, assemble_crcBytes_eq_none_iff bs,
      fun base => decodedLine_crcBytes base⟩,
    rfl,
    fun r b0 b1 b2 => ⟨assemble_readTemp_eq_linesInOrder r b0 b1 b2, assemble_readTemp_eq_none_iff r b0 b1 b2⟩,
    fun r b0 b1 b2 => assemble_readTemp_of_lt⟩
  · exact ⟨decodedLine_of_assemble_one base rfl rfl, decodedLine_of_assemble_one base rfl rfl,
      decodedLine_of_assemble_one base rfl rfl, decodedLine_of_assemble_one base rfl rfl⟩
  · exact decodedLine_of_assemble_one base rfl rfl
  · have hbyte (op : Nat) : asmByteCommand op b = none := (asmByteCommand_eq_none_iff op b).mpr hb
    exact ⟨hbyte 0x02, hbyte 0x03, hbyte 0x04, hbyte 0x05, (asmRxPush_eq_none_iff b).mpr hb⟩

end Sys2Proof.Machine
end

section
/-! PROOFS. The CRC-8 engine and its commands (40_crc.md): the table and the bit-serial form (R103, R104), the laws of
the checksum (R107), the remainder of the message polynomial (R100 to R102), the commands CRC.INIT and CRC.FEED (R108,
R109), steps under other parameters (R103), and O19, O20, O21, O23, O24, O25. -/

namespace Sys2Proof.Machine

open Sys2Proof.Safety Sys2Proof.Statements

/-! ### The table (40_crc.md R103, R104) -/

theorem crcTableEntry_xor_eq_crc8Byte (c b : Byte) : crcTableEntry (c ^^^ b) = crc8Byte c b :=
  crcTableEntry_eq_repeat_crcBitStep (c ^^^ b)

theorem crc8Byte_eq_crcTableEntry (c b : Byte) : crc8Byte c b = crcTableEntry (c ^^^ b) :=
  (crcTableEntry_xor_eq_crc8Byte c b).symm

theorem crcTable_length : crcTable.length = 256 := by decide +kernel

theorem crcTable_getElem? (i : Byte) : crcTable[i.toNat]? = some (crcTableEntry i) := by
  have hi : i.toNat < crcTable.length := by rw [crcTable_length]; exact i.isLt
  rw [crcTableEntry, List.getElem?_eq_getElem hi, List.getD_eq_getElem crcTable _ hi]

/-- Settles O20: the entry at `i` is the byte step on `0x00 xor i`. -/
theorem tableHoldsCrcOfEveryByte : Obligations.TableHoldsCrcOfEveryByte := by
  refine ⟨crcTable_length, fun i => ?_⟩
  rw [crcTable_getElem?, crc8Byte_eq_crcTableEntry, BitVec.zero_xor]

/-! ### The bit step is linear and loses nothing -/

/-- Of two top bits that are both set, the two generators added cancel. -/
theorem crcBitStep_xor (x y : Byte) : crcBitStep (x ^^^ y) = crcBitStep x ^^^ crcBitStep y := by
  have hshift : (x ^^^ y) <<< 1 = x <<< 1 ^^^ y <<< 1 := BitVec.shiftLeft_xor_distrib x y 1
  have hmsb : (x ^^^ y).msb = (x.msb ^^ y.msb) := BitVec.msb_xor
  cases hx : x.msb <;> cases hy : y.msb <;>
    simp only [crcBitStep, hmsb, hx, hy, hshift, Bool.xor_false, Bool.xor_true, Bool.not_true, Bool.not_false,
      Bool.false_eq_true, if_true, if_false]
  case false.true => exact BitVec.xor_assoc _ _ _
  case true.false => ac_rfl
  case true.true =>
    rw [BitVec.xor_comm (y <<< 1), ← BitVec.xor_assoc, BitVec.xor_assoc (x <<< 1), BitVec.xor_self, BitVec.xor_zero]

theorem crcBitStep_eq_zero : ∀ x : Byte, crcBitStep x = 0x00#8 → x = 0x00#8 := by decide

theorem repeat_crcBitStep_xor (n : Nat) (x y : Byte) :
    Nat.repeat crcBitStep n (x ^^^ y) = Nat.repeat crcBitStep n x ^^^ Nat.repeat crcBitStep n y := by
  induction n with
  | zero => rfl
  | succ n ih => rw [Nat.repeat, ih, crcBitStep_xor]; rfl

theorem repeat_crcBitStep_eq_zero {n : Nat} {x : Byte} (h : Nat.repeat crcBitStep n x = 0x00#8) : x = 0x00#8 := by
  induction n with
  | zero => exact h
  | succ n ih => exact ih (crcBitStep_eq_zero _ h)

/-! ### The laws of the checksum (40_crc.md R107) -/

theorem crcTableEntry_xor (a b : Byte) : crcTableEntry (a ^^^ b) = crcTableEntry a ^^^ crcTableEntry b := by
  simp only [crcTableEntry_eq_repeat_crcBitStep, repeat_crcBitStep_xor]

@[simp] theorem crcTableEntry_zero : crcTableEntry 0x00#8 = 0x00#8 := rfl

theorem crcTableEntry_injective : Function.Injective crcTableEntry := by
  intro a b h
  have hzero : crcTableEntry (a ^^^ b) = 0x00#8 := by rw [crcTableEntry_xor, h, BitVec.xor_self]
  rw [crcTableEntry_eq_repeat_crcBitStep] at hzero
  exact BitVec.xor_eq_zero_iff.mp (repeat_crcBitStep_eq_zero hzero)

theorem crc8Byte_left_injective (b : Byte) : Function.Injective fun c => crc8Byte c b := by
  intro c d h
  simp only [crc8Byte_eq_crcTableEntry] at h
  exact (BitVec.xor_left_inj b).mp (crcTableEntry_injective h)

theorem crc8Byte_right_injective (c : Byte) : Function.Injective (crc8Byte c) := by
  intro a b h
  simp only [crc8Byte_eq_crcTableEntry] at h
  exact (BitVec.xor_right_inj c).mp (crcTableEntry_injective h)

theorem foldl_crc8Byte_injective (bs : List Byte) : Function.Injective fun c => bs.foldl crc8Byte c := by
  induction bs with
  | nil => exact fun _ _ h => h
  | cons b bs ih => exact ih.comp (crc8Byte_left_injective b)

@[simp] theorem crc8Byte_self (c : Byte) : crc8Byte c c = 0x00#8 := by
  rw [crc8Byte_eq_crcTableEntry, BitVec.xor_self, crcTableEntry_zero]

theorem crc8_append_cons (front back : List Byte) (b : Byte) :
    crc8 (front ++ b :: back) = back.foldl crc8Byte (crc8Byte (crc8 front) b) := by
  rw [crc8, crc8, List.foldl_append, List.foldl_cons]

theorem crc8_concat (bs : List Byte) (b : Byte) : crc8 (bs ++ [b]) = crc8Byte (crc8 bs) b := crc8_append_cons bs [] b

/-- Settles O23. A single wrong byte changes the accumulator it is fed to, and no later byte can undo that, because the
byte step is injective in the accumulator. -/
theorem checksumLaws : Obligations.ChecksumLaws := by
  refine ⟨crcTableEntry_xor, crcTableEntry_zero, ?_, ?_, by decide +kernel⟩
  · intro bs _
    rw [crc8_concat, crc8Byte_self]
  · intro front back a b hab h
    rw [crc8_append_cons, crc8_append_cons] at h
    exact hab (crc8Byte_right_injective (crc8 front) (foldl_crc8Byte_injective back h))

/-! ### The checksum as a polynomial remainder (40_crc.md R100 to R102) -/

section Remainder

open Polynomial

theorem bytePoly_xor (a b : Byte) : bytePoly (a ^^^ b) = bytePoly a + bytePoly b := by
  rw [bytePoly, bytePoly, bytePoly, ← Finset.sum_add_distrib]
  refine Finset.sum_congr rfl fun i _ => ?_
  rw [BitVec.getLsbD_xor]
  cases a.getLsbD i <;> cases b.getLsbD i <;> simp [CharTwo.add_self_eq_zero]

/-- Shifting a byte left multiplies by X, but the top bit is lost. -/
theorem bytePoly_shiftLeft_one (x : Byte) :
    bytePoly (x <<< 1) + (if x.msb then X ^ 8 else 0) = bytePoly x * X := by
  have hbit : ∀ i ∈ Finset.range 7, (if (x <<< 1).getLsbD (i + 1) then (X : (ZMod 2)[X]) ^ (i + 1) else 0)
      = (if x.getLsbD i then X ^ i else 0) * X := by
    intro i hi
    have hi : i < 7 := Finset.mem_range.mp hi
    simp [show i + 1 < 8 by omega, pow_succ, BitVec.getLsbD_eq_getElem (show i < 8 by omega)]
  rw [bytePoly, bytePoly, Finset.sum_range_succ' _ 7, Finset.sum_range_succ _ 7, Finset.sum_congr rfl hbit, add_mul,
    Finset.sum_mul]
  simp [BitVec.msb_eq_getLsbD_last, pow_succ]

theorem bytePoly_seven : bytePoly 0x07#8 = X ^ 2 + X + 1 := by
  have hbits : bytePoly 0x07#8 = 1 + X + X ^ 2 := by simp [bytePoly, Finset.sum_range_succ]
  rw [hbits]
  ring

theorem generatorPoly_eq : generatorPoly = X ^ 8 + bytePoly 0x07#8 := by
  rw [generatorPoly, bytePoly_seven]
  ring

/-- One iteration of R100 multiplies by X and, where the top bit would leave the byte, subtracts the generator. -/
theorem bytePoly_mul_X (x : Byte) :
    bytePoly x * X = (if x.msb then 1 else 0) * generatorPoly + bytePoly (crcBitStep x) := by
  have hshift := bytePoly_shiftLeft_one x
  cases hx : x.msb with
  | false => simpa [crcBitStep, hx] using hshift.symm
  | true =>
    have htwo : bytePoly 0x07#8 + bytePoly 0x07#8 = 0 := CharTwo.add_self_eq_zero _
    simp only [hx, if_true, crcBitStep, bytePoly_xor, generatorPoly_eq] at hshift ⊢
    linear_combination -hshift - htwo

theorem bytePoly_mul_X_pow (n : Nat) (x : Byte) :
    ∃ q, bytePoly x * X ^ n = q * generatorPoly + bytePoly (Nat.repeat crcBitStep n x) := by
  induction n with
  | zero => exact ⟨0, by simp [Nat.repeat]⟩
  | succ n ih =>
    obtain ⟨q, hq⟩ := ih
    have hbit := bytePoly_mul_X (Nat.repeat crcBitStep n x)
    refine ⟨q * X + if (Nat.repeat crcBitStep n x).msb then 1 else 0, ?_⟩
    rw [Nat.repeat, pow_succ]
    linear_combination X * hq + hbit

/-- The byte step: the accumulator plus the byte, times x^8, reduced by the generator. -/
theorem bytePoly_crc8Byte (c b : Byte) :
    ∃ q, (bytePoly c + bytePoly b) * X ^ 8 = q * generatorPoly + bytePoly (crc8Byte c b) := by
  rw [← bytePoly_xor]
  exact bytePoly_mul_X_pow 8 (c ^^^ b)

theorem messagePoly_concat (bs : List Byte) (b : Byte) :
    messagePoly (bs ++ [b]) = messagePoly bs * X ^ 8 + bytePoly b := by
  rw [messagePoly, messagePoly, List.foldl_append, List.foldl_cons, List.foldl_nil]

/-- Settles O19, by induction on the message from its end: the last byte is added to the remainder so far, and the sum
times x^8 is what the byte step reduces. -/
theorem checksumIsPolynomialRemainder : Obligations.ChecksumIsPolynomialRemainder := by
  intro bs
  induction bs using List.reverseRecOn with
  | nil => exact ⟨0, by simp [messagePoly, crc8, bytePoly]⟩
  | append_singleton bs b ih =>
    obtain ⟨q, hq⟩ := ih
    obtain ⟨r, hr⟩ := bytePoly_crc8Byte (crc8 bs) b
    refine ⟨q * X ^ 8 + r, ?_⟩
    rw [messagePoly_concat, crc8_concat]
    linear_combination X ^ 8 * hq + hr

end Remainder

/-! ### CRC.INIT and CRC.FEED (40_crc.md R108, R109) -/

/-- A command that is a write of `v` to CMD, and that `v` decodes to, has no other word. -/
theorem decodeCommand_eq_iff {i : Instr} {v : Word} (htriple : i.triple = .wr Reg.cmd.offset v)
    (hdecode : decodeCommand v = i) (w : Word) : decodeCommand w = i ↔ w = v := by
  constructor
  · intro hw
    have hwv := (decodeCommand_encodes w).2
    rw [hw, htriple] at hwv
    exact (Triple.wr.inj hwv).2.symm
  · rintro rfl
    exact hdecode

theorem decodeCommand_eq_crcInit_iff (w : Word) : decodeCommand w = .crcInit ↔ w = 0x00000001#32 :=
  decodeCommand_eq_iff (i := .crcInit) rfl decodeCommand_crcInit w

theorem decodeCommand_eq_crcFeed_iff (w : Word) (b : Byte) :
    decodeCommand w = .crcFeed b ↔ w = (b.setWidth 32 <<< 8) ||| 0x02#32 := by
  rw [decodeCommand_eq_iff (i := .crcFeed b) rfl (decodeCommand_crcFeed b), commandWord_of_byte]
  rfl

theorem exec_crcInit (s : State) :
    exec .crcInit s = .next (answered s { s.x with crc := 0x00#8, code := 1#4, lastOp := 0x01#8 } .completed) := rfl

theorem exec_crcFeed (b : Byte) (s : State) :
    exec (.crcFeed b) s
      = .next (answered s { s.x with crc := crc8Byte s.x.crc b, code := 1#4, lastOp := 0x02#8 } .completed) := by
  rw [← crcEngine_eq_crc8Byte s.params.crcImpl]
  rfl

/-- Settles O24: the decoder reads every bit of the word, and the effect is the body of the command. -/
theorem crcInitClearsAccumulator : Obligations.CrcInitClearsAccumulator :=
  ⟨decodeCommand_eq_crcInit_iff, exec_crcInit⟩

/-- The step of a pending instruction is that instruction. -/
theorem step_of_pending_instr {s : State} {i : Instr} {rest : List HostEvent} (hwf : i.wellFormed = true)
    (hline : s.resetLine = false) (hp : s.pending = .access (encode s.params.base i) :: rest) :
    step s = exec i { s with pending := rest } := by
  rw [step_of_access hp hline]
  exact hostAccess_of_instr (s := { s with pending := rest }) (decode_encode s.params.base hwf)

/-- A run over pending feeds folds the byte step over their bytes. -/
theorem run_of_pending_feeds {s : State} {bs : List Byte} (hline : s.resetLine = false)
    (hp : s.pending = bs.map fun b => .access (encode s.params.base (.crcFeed b))) :
    ∃ t, run bs.length s = .next t ∧ t.pending = [] ∧ t.x.crc = bs.foldl crc8Byte s.x.crc := by
  induction bs generalizing s with
  | nil => exact ⟨s, rfl, hp, rfl⟩
  | cons b bs ih =>
    have hstep := step_of_pending_instr rfl hline hp
    rw [exec_crcFeed] at hstep
    rw [List.length_cons, run_succ_of_next bs.length hstep]
    exact ih hline rfl

/-- Settles O25: after the step of CRC.INIT, the feeds are pending and the accumulator is 0x00, where `crc8` starts. -/
theorem crcFeedFoldsBytes : Obligations.CrcFeedFoldsBytes := by
  refine ⟨decodeCommand_eq_crcFeed_iff, exec_crcFeed, fun s bs hline hp => ?_⟩
  have hstep := step_of_pending_instr rfl hline hp
  rw [exec_crcInit] at hstep
  rw [run_succ_of_next bs.length hstep]
  exact run_of_pending_feeds hline rfl

/-! ### Steps under other parameters (40_crc.md R103) -/

/-- The same machine, instantiated with other parameters. -/
def State.withParams (p : Params) (s : State) : State := { s with params := p }

@[simp] theorem State.withParams_params (p : Params) (s : State) : (s.withParams p).params = p := rfl

/-- The outcome with its next state, if it has one, changed by `f`. -/
def mapNext (f : State → State) : Host.Outcome State Fault Refusal → Host.Outcome State Fault Refusal
  | .next t => .next (f t)
  | .fault r => .fault r
  | .refused r => .refused r

section OtherParameters

variable {p q : Params}

theorem framePath_of_devAddr_eq (hdev : q.devAddr = p.devAddr) : framePath q = framePath p := by
  funext r x
  simp only [framePath, hdev, crcEngineList_eq_crc8]

theorem readValue_of_devAddr_eq (hdev : q.devAddr = p.devAddr) : readValue q = readValue p := by
  funext x reg
  cases reg
  case devAddr => rw [readValue, readValue, hdev]
  all_goals rfl

theorem frameBody_of_devAddr_eq (hdev : q.devAddr = p.devAddr) (r : Byte) : frameBody q r = frameBody p r := by
  funext x
  rw [frameBody, frameBody, framePath_of_devAddr_eq hdev]

theorem checkBody_of_devAddr_eq (hdev : q.devAddr = p.devAddr) (r : Byte) : checkBody q r = checkBody p r := by
  funext x
  rw [checkBody, checkBody, framePath_of_devAddr_eq hdev]

theorem readBody_of_devAddr_eq (hdev : q.devAddr = p.devAddr) (r : Byte) : readBody q r = readBody p r := by
  funext x
  rw [readBody, readBody, framePath_of_devAddr_eq hdev]

/-- A command whose body is the same under both parameters. -/
theorem runCommand_withParams (s : State) (op : Byte) {body body' : Elements → Elements} (h : body = body') :
    Host.Outcome.next ((s.withParams q).runCommand op body)
      = mapNext (State.withParams q) (.next (s.runCommand op body')) := by
  rw [h]
  rfl

theorem exec_withParams {s : State} (i : Instr) (hdev : q.devAddr = s.params.devAddr) :
    exec i (s.withParams q) = mapNext (State.withParams q) (exec i s) := by
  cases i with
  | crcFeed b =>
    rw [exec_crcFeed, exec_crcFeed]
    rfl
  | frame r => exact runCommand_withParams s 0x03#8 (frameBody_of_devAddr_eq hdev r)
  | check r => exact runCommand_withParams s 0x04#8 (checkBody_of_devAddr_eq hdev r)
  | read r => exact runCommand_withParams s 0x05#8 (readBody_of_devAddr_eq hdev r)
  | rd reg =>
    rw [exec_rd, exec_rd, State.withParams_params, readValue_of_devAddr_eq hdev]
    rfl
  | nop | crcInit | convert | rxClear | srst | illegal | rxPush | wr => rfl

theorem hostAccess_withParams {s : State} (a : Access) (hdev : q.devAddr = s.params.devAddr)
    (hbase : q.base = s.params.base) :
    hostAccess a (s.withParams q) = mapNext (State.withParams q) (hostAccess a s) := by
  have hq : decode (s.withParams q).params.base a = decode s.params.base a := by
    rw [State.withParams_params, hbase]
  cases hd : decode s.params.base a with
  | outside addr => rw [hostAccess_of_outside hd, hostAccess_of_outside (hq.trans hd)]; rfl
  | busError addr => rw [hostAccess_of_busError hd, hostAccess_of_busError (hq.trans hd)]; rfl
  | instr i => rw [hostAccess_of_instr hd, hostAccess_of_instr (hq.trans hd), exec_withParams i hdev]

theorem hostEvent_withParams {s : State} (e : HostEvent) (hdev : q.devAddr = s.params.devAddr)
    (hbase : q.base = s.params.base) :
    hostEvent e (s.withParams q) = mapNext (State.withParams q) (hostEvent e s) := by
  obtain ⟨_, _, line, _, _⟩ := s
  cases e with
  | assertReset => rfl
  | releaseReset => cases line <;> rfl
  | access a =>
    cases line with
    | true => rfl
    | false => exact hostAccess_withParams a hdev hbase

/-- Only the device address and the window's place reach a step: the CRC engine and the latency do not. -/
theorem step_withParams {s : State} (hdev : q.devAddr = s.params.devAddr) (hbase : q.base = s.params.base) :
    step (s.withParams q) = mapNext (State.withParams q) (step s) := by
  cases hp : s.pending with
  | nil => rw [step_of_nil hp, step_of_nil (s := s.withParams q) hp]; rfl
  | cons e rest =>
    rw [step_of_cons hp, step_of_cons (s := s.withParams q) hp]
    exact hostEvent_withParams (s := { s with pending := rest }) e hdev hbase

end OtherParameters

/-- Settles O21. The step's next state has the old parameters, so giving it the new engine is giving it the new
parameters whole. -/
theorem crcImplementationIsUnobservable : Obligations.CrcImplementationIsUnobservable := by
  refine ⟨crcTableEntry_xor_eq_crc8Byte, fun s impl => ?_⟩
  have hstep := step_withParams (s := s) (q := { s.params with crcImpl := impl }) rfl rfl
  cases h : step s with
  | next t =>
    show _ = Host.Outcome.next { t with params := { t.params with crcImpl := impl } }
    rw [step_params h]
    exact hstep.trans (congrArg (mapNext _) h)
  | fault f => exact hstep.trans (congrArg (mapNext _) h)
  | refused r => exact hstep.trans (congrArg (mapNext _) h)

end Sys2Proof.Machine
end

section
/-! PROOFS. The frame path (41_frame_check.md): the frame and the raw word as numbers (R120, R121), the effect of FRAME,
CHECK and READ outcome by outcome (R127 to R129), the emptied buffer (R126), what READ depends on, runs of pushes and a
frame command (R123, R129, R130), and O26, O27, O28, O29, O30, O31, O33, O34, O37. -/

namespace Sys2Proof.Machine

open Sys2Proof.Safety Sys2Proof.Statements

/-! ### The frame and the raw word (41_frame_check.md R120, R121) -/

/-- Both address bytes are the address shifted up by one; only the bit put below it differs. -/
theorem writeAddrByte_xor_readAddrByte (a : BitVec 7) : writeAddrByte a ^^^ readAddrByte a = 0x01#8 := by
  ext i hi
  cases i <;> simp [writeAddrByte, readAddrByte]

/-- Settles O26: an address byte is twice the address plus the bit below it, which decides its parity. -/
theorem frameIsTheFiveBytes : Obligations.FrameIsTheFiveBytes := by
  intro a r lo hi
  have hwrite : writeAddrByte a = BitVec.ofNat 8 (2 * a.toNat) := shiftedAddr_or_eq_ofNat a (b := 0#8) (by decide)
  have hread : readAddrByte a = BitVec.ofNat 8 (2 * a.toNat + 1) := shiftedAddr_or_eq_ofNat a (b := 1#8) (by decide)
  refine ⟨by rw [frameBytes, hwrite, hread], ?_, ?_, writeAddrByte_xor_readAddrByte a⟩
  · rw [hwrite, BitVec.toNat_ofNat]
    omega
  · rw [hread, BitVec.toNat_ofNat]
    omega

theorem rawOf_toNat (lo hi : Byte) : (rawOf lo hi).toNat = 256 * hi.toNat + lo.toNat := by
  rw [rawOf, BitVec.toNat_ofNat]
  omega

/-- Settles O27: the model's raw word is the one of the statements, and 256 times a byte plus a byte fits 16 bits. -/
theorem rawWordIsLittleEndian : Obligations.RawWordIsLittleEndian := by
  intro lo hi
  rw [raw16_eq_rawOf, rawOf_toNat]

/-! ### The effect of FRAME, CHECK and READ, outcome by outcome (41_frame_check.md R127 to R129) -/

/-- A command of format B (30_encoding.md R81) has one word for each operand byte. -/
theorem decodeCommand_eq_byteCommand_iff {i : Instr} {op b : Byte}
    (htriple : i.triple = .wr Reg.cmd.offset (commandWord op b 0#16))
    (hdecode : decodeCommand (commandWord op b 0#16) = i) (w : Word) :
    decodeCommand w = i ↔ w = (b.setWidth 32 <<< 8) ||| op.setWidth 32 := by
  rw [decodeCommand_eq_iff htriple hdecode, commandWord_of_byte]

theorem decodeCommand_eq_frame_iff (w : Word) (r : Byte) :
    decodeCommand w = .frame r ↔ w = (r.setWidth 32 <<< 8) ||| 0x03#32 :=
  decodeCommand_eq_byteCommand_iff (op := 0x03#8) rfl (decodeCommand_frame r) w

theorem decodeCommand_eq_check_iff (w : Word) (r : Byte) :
    decodeCommand w = .check r ↔ w = (r.setWidth 32 <<< 8) ||| 0x04#32 :=
  decodeCommand_eq_byteCommand_iff (op := 0x04#8) rfl (decodeCommand_check r) w

theorem decodeCommand_eq_read_iff (w : Word) (r : Byte) :
    decodeCommand w = .read r ↔ w = (r.setWidth 32 <<< 8) ||| 0x05#32 :=
  decodeCommand_eq_byteCommand_iff (op := 0x05#8) rfl (decodeCommand_read r) w

/-- The effect of a command is that of its body on the elements with LASTOP set (30_encoding.md R86). -/
theorem next_runCommand_eq_answered {op : Byte} {body : Elements → Elements} {s : State} {y : Elements}
    (hbody : body (s.x.setLastOp op) = y) :
    (.next (s.runCommand op body) : Host.Outcome State Fault Refusal) = .next (answered s y .completed) := by
  rw [← hbody]
  rfl

section Outcomes

variable {r : Byte} {s : State}

theorem exec_frame_of_complete (hlen : s.x.rxCnt = 3#3) :
    exec (.frame r) s
      = .next (answered s { framed s.params r s.x with code := 1#4, lastOp := 0x03#8 } .completed) := by
  obtain ⟨hlen', -⟩ | ⟨-, hbody⟩ := frameBody_cases s.params r (s.x.setLastOp 0x03#8)
  · exact absurd hlen hlen'
  · exact next_runCommand_eq_answered hbody

theorem exec_frame_of_wrong_length (hlen : s.x.rxCnt ≠ 3#3) :
    exec (.frame r) s = .next (answered s { emptied s.x with code := 3#4, lastOp := 0x03#8 } .completed) :=
  next_runCommand_eq_answered (frameBody_of_wrong_length s.params r hlen)

theorem exec_check_of_complete (hlen : s.x.rxCnt = 3#3) :
    exec (.check r) s
      = .next (answered s
          { framed s.params r s.x with
            code := if frameCrc s.params r s.x = s.x.rx2 then 1#4 else 2#4, lastOp := 0x04#8 }
          .completed) := by
  obtain ⟨hlen', -⟩ | ⟨-, hpec, hbody⟩ | ⟨-, hpec, hbody⟩ := checkBody_cases s.params r (s.x.setLastOp 0x04#8)
  · exact absurd hlen hlen'
  · rw [if_neg (show frameCrc s.params r s.x ≠ s.x.rx2 from hpec)]
    exact next_runCommand_eq_answered hbody
  · rw [if_pos (show frameCrc s.params r s.x = s.x.rx2 from hpec)]
    exact next_runCommand_eq_answered hbody

theorem exec_check_of_wrong_length (hlen : s.x.rxCnt ≠ 3#3) :
    exec (.check r) s = .next (answered s { emptied s.x with code := 3#4, lastOp := 0x04#8 } .completed) :=
  next_runCommand_eq_answered (checkBody_of_wrong_length s.params r hlen)

theorem exec_read_of_other_register (hr : ¬ TempReg r) :
    exec (.read r) s
      = .next (answered s { cleared (emptied s.x) with code := 4#4, lastOp := 0x05#8 } .completed) := by
  have hreg : isTempReg r = false := Bool.eq_false_iff.mpr (mt (isTempReg_iff r).mp hr)
  exact next_runCommand_eq_answered (readBody_of_other_register s.params hreg (s.x.setLastOp 0x05#8))

theorem exec_read_of_wrong_length (hr : TempReg r) (hlen : s.x.rxCnt ≠ 3#3) :
    exec (.read r) s
      = .next (answered s { cleared (emptied s.x) with code := 3#4, lastOp := 0x05#8 } .completed) :=
  next_runCommand_eq_answered (readBody_of_wrong_length s.params ((isTempReg_iff r).mpr hr) hlen)

theorem exec_read_of_mismatch (hr : TempReg r) (hlen : s.x.rxCnt = 3#3) (hpec : frameCrc s.params r s.x ≠ s.x.rx2) :
    exec (.read r) s
      = .next (answered s { cleared (framed s.params r s.x) with code := 2#4, lastOp := 0x05#8 } .completed) := by
  obtain ⟨hr', -⟩ | ⟨hlen', -⟩ | ⟨-, -, hbody⟩ | ⟨-, -, hpec', -⟩ := readBody_cases s.params r (s.x.setLastOp 0x05#8)
  · exact absurd hr hr'
  · exact absurd hlen hlen'
  · exact next_runCommand_eq_answered hbody
  · exact absurd hpec' hpec

theorem exec_read_of_match (hr : TempReg r) (hlen : s.x.rxCnt = 3#3) (hpec : frameCrc s.params r s.x = s.x.rx2) :
    exec (.read r) s
      = .next (answered s
          { converted (receivedRaw s.x) 1#1 (framed s.params r s.x) with code := 1#4, lastOp := 0x05#8 }
          .completed) := by
  obtain ⟨hr', -⟩ | ⟨hlen', -⟩ | ⟨-, hpec', -⟩ | ⟨-, -, -, hbody⟩ := readBody_cases s.params r (s.x.setLastOp 0x05#8)
  · exact absurd hr hr'
  · exact absurd hlen hlen'
  · exact absurd hpec hpec'
  · exact next_runCommand_eq_answered hbody

end Outcomes

/-- Settles O28: the word's format, and one case per answer of the length check. -/
theorem frameBuildsFrameAndCrc : Obligations.FrameBuildsFrameAndCrc := by
  refine ⟨decodeCommand_eq_frame_iff, fun r s => ?_⟩
  by_cases hlen : s.x.rxCnt = 3#3
  · rw [if_pos hlen, exec_frame_of_complete hlen]
  · rw [if_neg hlen, exec_frame_of_wrong_length hlen]

/-- Settles O29: the word's format, and one case per answer of the length check. -/
theorem checkComparesPec : Obligations.CheckComparesPec := by
  refine ⟨decodeCommand_eq_check_iff, fun r s => ?_⟩
  by_cases hlen : s.x.rxCnt = 3#3
  · rw [if_pos hlen, exec_check_of_complete hlen]
  · rw [if_neg hlen, exec_check_of_wrong_length hlen]

/-- Settles O30: the word's format, and the checks in the order of 60_exceptions.md R187. -/
theorem readValidatesThenConverts : Obligations.ReadValidatesThenConverts := by
  refine ⟨decodeCommand_eq_read_iff, fun r s => ?_⟩
  by_cases hr : TempReg r
  · rw [if_neg (not_not_intro hr)]
    by_cases hlen : s.x.rxCnt = 3#3
    · rw [if_neg (not_not_intro hlen)]
      by_cases hpec : frameCrc s.params r s.x = s.x.rx2
      · rw [if_neg (not_not_intro hpec), exec_read_of_match hr hlen hpec]
      · rw [if_pos hpec, exec_read_of_mismatch hr hlen hpec]
    · rw [if_pos hlen, exec_read_of_wrong_length hr hlen]
  · rw [if_pos hr, exec_read_of_other_register hr]

/-! ### The receive buffer after FRAME, CHECK and READ (41_frame_check.md R126) -/

/-- The receive buffer is empty, its slots cleared. -/
def BufferEmpty (x : Elements) : Prop := x.rx0 = 0x00#8 ∧ x.rx1 = 0x00#8 ∧ x.rx2 = 0x00#8 ∧ x.rxCnt = 0#3

theorem frameBody_bufferEmpty (p : Params) (r : Byte) (x : Elements) : BufferEmpty (frameBody p r x) := by
  obtain ⟨-, hb⟩ | ⟨-, hb⟩ := frameBody_cases p r x <;> (rw [hb]; exact ⟨rfl, rfl, rfl, rfl⟩)

theorem checkBody_bufferEmpty (p : Params) (r : Byte) (x : Elements) : BufferEmpty (checkBody p r x) := by
  obtain ⟨-, hb⟩ | ⟨-, -, hb⟩ | ⟨-, -, hb⟩ := checkBody_cases p r x <;> (rw [hb]; exact ⟨rfl, rfl, rfl, rfl⟩)

theorem readBody_bufferEmpty (p : Params) (r : Byte) (x : Elements) : BufferEmpty (readBody p r x) := by
  obtain ⟨-, hb⟩ | ⟨-, hb⟩ | ⟨-, -, hb⟩ | ⟨-, -, -, hb⟩ := readBody_cases p r x <;>
    (rw [hb]; exact ⟨rfl, rfl, rfl, rfl⟩)

theorem exec_empties_buffer {i : Instr} {r : Byte} (s : State) (hi : i = .frame r ∨ i = .check r ∨ i = .read r) :
    ∃ t, exec i s = .next t ∧ BufferEmpty t.x := by
  obtain rfl | rfl | rfl := hi
  · exact ⟨_, rfl, frameBody_bufferEmpty s.params r (s.x.setLastOp 0x03#8)⟩
  · exact ⟨_, rfl, checkBody_bufferEmpty s.params r (s.x.setLastOp 0x04#8)⟩
  · exact ⟨_, rfl, readBody_bufferEmpty s.params r (s.x.setLastOp 0x05#8)⟩

/-! ### A wrong number of bytes (41_frame_check.md R123, R124) -/

/-- The accumulator and the recorded frame of `y` are those of `x`. -/
structure SameFrame (x y : Elements) : Prop where
  crc : y.crc = x.crc
  fb0 : y.fb0 = x.fb0
  fb1 : y.fb1 = x.fb1
  fb2 : y.fb2 = x.fb2
  fb3 : y.fb3 = x.fb3
  fb4 : y.fb4 = x.fb4
  fpec : y.fpec = x.fpec

theorem SameFrame.refl (x : Elements) : SameFrame x x := ⟨rfl, rfl, rfl, rfl, rfl, rfl, rfl⟩

theorem SameFrame.trans {x y z : Elements} (h : SameFrame x y) (h' : SameFrame y z) : SameFrame x z :=
  ⟨h'.crc.trans h.crc, h'.fb0.trans h.fb0, h'.fb1.trans h.fb1, h'.fb2.trans h.fb2, h'.fb3.trans h.fb3,
    h'.fb4.trans h.fb4, h'.fpec.trans h.fpec⟩

theorem push_sameFrame (b : Byte) (x : Elements) : SameFrame x (x.push b) := by
  obtain ⟨-, hb⟩ | ⟨-, hb⟩ | ⟨-, hb⟩ | ⟨-, -, -, hb⟩ := x.push_cases b <;>
    (rw [hb]; exact ⟨rfl, rfl, rfl, rfl, rfl, rfl, rfl⟩)

theorem pushAll_sameFrame (vs : List Word) (x : Elements) : SameFrame x (x.pushAll vs) := by
  induction vs generalizing x with
  | nil => exact .refl x
  | cons v vs ih => exact (push_sameFrame (pushedByte v) x).trans (ih _)

/-- A command that reaches the length check and fails it changes neither frame nor accumulator. -/
theorem exec_of_wrong_length {i : Instr} {r : Byte} {s : State}
    (hi : i = .frame r ∨ i = .check r ∨ i = .read r ∧ TempReg r) (hlen : s.x.rxCnt ≠ 3#3) :
    ∃ t, exec i s = .next t ∧ t.x.code = 3#4 ∧ SameFrame s.x t.x ∧ t.x.rxCnt = 0#3 := by
  obtain rfl | rfl | ⟨rfl, hr⟩ := hi
  · exact ⟨_, exec_frame_of_wrong_length hlen, rfl, ⟨rfl, rfl, rfl, rfl, rfl, rfl, rfl⟩, rfl⟩
  · exact ⟨_, exec_check_of_wrong_length hlen, rfl, ⟨rfl, rfl, rfl, rfl, rfl, rfl, rfl⟩, rfl⟩
  · exact ⟨_, exec_read_of_wrong_length hr hlen, rfl, ⟨rfl, rfl, rfl, rfl, rfl, rfl, rfl⟩, rfl⟩

/-- Settles O31: the first command leaves count 0, which the length check of the second refuses. -/
theorem frameCommandsConsumeTheBuffer : Obligations.FrameCommandsConsumeTheBuffer := by
  intro r s i hi
  obtain ⟨t, hexec, h0, h1, h2, hcnt⟩ := exec_empties_buffer s hi
  refine ⟨t, hexec, h0, h1, h2, hcnt, fun r' j hj => ?_⟩
  obtain ⟨u, hexec', hcode, hsame, -⟩ := exec_of_wrong_length hj (s := t) (by rw [hcnt]; decide)
  exact ⟨u, hexec', hcode, hsame.crc⟩

/-- The count alone decides what a push does to the count. -/
theorem pushAll_rxCnt_of_empty {x : Elements} (hcnt : x.rxCnt = 0#3) (vs : List Word) :
    (x.pushAll vs).rxCnt = BitVec.ofNat 3 (min vs.length 4) := by
  match vs with
  | [] => exact hcnt
  | [v] => simp [Elements.push_onto_empty, hcnt]
  | [v, w] => simp [Elements.push_onto_empty, Elements.push_onto_one, hcnt]
  | [v, w, z] => simp [Elements.push_onto_empty, Elements.push_onto_one, Elements.push_onto_two, hcnt]
  | v :: w :: z :: y :: rest =>
    simp [Elements.push_onto_empty, Elements.push_onto_one, Elements.push_onto_two, Elements.push_overflow,
      Elements.pushAll_of_overflowed, hcnt]

theorem pushAll_rxCnt_ne_three {x : Elements} {vs : List Word} (hcnt : x.rxCnt = 0#3) (hvs : vs.length ≠ 3) :
    (x.pushAll vs).rxCnt ≠ 3#3 := by
  rw [pushAll_rxCnt_of_empty hcnt]
  intro h
  have hmin : min vs.length 4 % 8 = 3 := congrArg BitVec.toNat h
  omega

theorem run_one (s : State) : run 1 s = step s := by
  rw [run_succ]
  cases step s <;> rfl

/-- The state after pushes of the words, with nothing pending. -/
def State.afterPushes (vs : List Word) (s : State) : State :=
  { s with x := s.x.pushAll vs, pending := [], replies := s.replies ++ List.replicate vs.length .completed }

/-- A run over pending pushes and one more instruction ends as that instruction does on the filled buffer. -/
theorem run_of_pending_pushes_then {s : State} {vs : List Word} {i : Instr} (hwf : i.wellFormed = true)
    (hline : s.resetLine = false) (hp : s.pending = pushes s.params.base vs ++ [.access (encode s.params.base i)]) :
    run (vs.length + 1) s = exec i (s.afterPushes vs) := by
  rw [run_add_of_next 1 (run_of_pending_pushes hline hp), run_one]
  exact step_of_pending_instr hwf hline rfl

/-- Settles O37: the count after the pushes is not 3, and the pushes leave frame and accumulator alone. -/
theorem wrongByteCountFailsLengthCheck : Obligations.WrongByteCountFailsLengthCheck := by
  intro s vs r i hline hcnt hvs hi hp
  have hwf : i.wellFormed = true := by obtain rfl | rfl | ⟨rfl, -⟩ := hi <;> rfl
  rw [run_of_pending_pushes_then hwf hline hp]
  obtain ⟨t, hexec, hcode, hsame, hempty⟩ := exec_of_wrong_length hi (s := s.afterPushes vs)
    (pushAll_rxCnt_ne_three hcnt hvs)
  obtain ⟨hcrc, h0, h1, h2, h3, h4, hpec⟩ := (pushAll_sameFrame vs s.x).trans hsame
  exact ⟨t, hexec, hcode, hcrc, h0, h1, h2, h3, h4, hpec, hempty⟩

/-! ### A whole transaction (41_frame_check.md R129, R130) -/

theorem pushedByte_setWidth (b : Byte) : pushedByte (b.setWidth 32) = b := by
  rw [pushedByte_eq_setWidth, BitVec.setWidth_setWidth_of_le _ (by decide), BitVec.setWidth_eq]

theorem pushAll_three_onto_empty {x : Elements} (hcnt : x.rxCnt = 0#3) (b0 b1 b2 : Byte) :
    x.pushAll [b0.setWidth 32, b1.setWidth 32, b2.setWidth 32]
      = { x with rx0 := b0, rx1 := b1, rx2 := b2, rxCnt := 3#3 } := by
  simp [Elements.push_onto_empty, Elements.push_onto_one, Elements.push_onto_two, hcnt, pushedByte_setWidth]

/-- The residue test of 41_frame_check.md R130 (d) is the comparison of R125. -/
theorem crc8_concat_eq_zero_iff (bs : List Byte) (b : Byte) : crc8 (bs ++ [b]) = 0x00#8 ↔ crc8 bs = b := by
  rw [crc8_concat]
  constructor
  · intro h
    exact crc8Byte_right_injective (crc8 bs) ((crc8Byte_self _).trans h.symm)
  · rintro rfl
    exact crc8Byte_self _

/-- Centi-Celsius values fit the 32-bit register (42_convert.md R140). -/
theorem centiCelsius_toInt (raw : Half) :
    (BitVec.ofInt 32 (2 * (raw.toNat : Int) - 27315)).toInt = 2 * (raw.toNat : Int) - 27315 := by
  have hraw := raw.isLt
  rw [BitVec.toInt_ofInt]
  exact Int.bmod_eq_of_le (by omega) (by omega)

theorem centiCelsius_rawOf_toInt (lo hi : Byte) :
    (BitVec.ofInt 32 (2 * ((rawOf lo hi).toNat : Int) - 27315)).toInt
      = 2 * (256 * (hi.toNat : Int) + lo.toNat) - 27315 := by
  rw [centiCelsius_toInt, rawOf_toNat]
  push_cast
  rfl

/-- Settles O33: the pushes fill the three slots, and READ's two outcomes there are told apart by the residue. -/
theorem readTransaction : Obligations.ReadTransaction := by
  intro s r lo hi pec hline hcnt hr hp
  have hrun := run_of_pending_pushes_then (i := .read r) rfl hline hp
  rw [State.afterPushes, pushAll_three_onto_empty hcnt] at hrun
  have hresidue : crc8 [writeAddr s.params, r, readAddr s.params, lo, hi, pec] = 0x00#8
      ↔ crc8 [writeAddr s.params, r, readAddr s.params, lo, hi] = pec :=
    crc8_concat_eq_zero_iff [writeAddr s.params, r, readAddr s.params, lo, hi] pec
  by_cases hpec : crc8 [writeAddr s.params, r, readAddr s.params, lo, hi] = pec
  · rw [exec_read_of_match hr] at hrun
    · exact ⟨_, hrun, rfl, rfl, rfl, rfl, rfl,
        fun _ => ⟨rfl, rfl, rfl, centiCelsius_rawOf_toInt lo hi, rfl⟩, fun h => absurd (hresidue.mpr hpec) h⟩
    · rfl
    · exact hpec
  · rw [exec_read_of_mismatch hr] at hrun
    · exact ⟨_, hrun, rfl, rfl, rfl, rfl, rfl,
        fun h => absurd (hresidue.mp h) hpec, fun _ => ⟨rfl, rfl, rfl, rfl, rfl⟩⟩
    · rfl
    · exact hpec

/-! ### What READ depends on (90_conflicts.md C5) -/

/-- Two cores with the same device address and the same receive buffer. -/
structure SameReceived (s s' : State) : Prop where
  devAddr : s.params.devAddr = s'.params.devAddr
  rx0 : s.x.rx0 = s'.x.rx0
  rx1 : s.x.rx1 = s'.x.rx1
  rx2 : s.x.rx2 = s'.x.rx2
  rxCnt : s.x.rxCnt = s'.x.rxCnt

theorem SameReceived.frameCrc_eq {s s' : State} (h : SameReceived s s') (r : Byte) :
    frameCrc s.params r s.x = frameCrc s'.params r s'.x := by
  rw [frameCrc, frameCrc, writeAddr, readAddr, writeAddr, readAddr, h.devAddr, h.rx0, h.rx1]

/-- Where the length check passes, READ writes every element, from the device address, the operand and the received
bytes. -/
theorem SameReceived.exec_read_x {s s' t t' : State} {r : Byte} (h : SameReceived s s') (hr : TempReg r)
    (hlen : s.x.rxCnt = 3#3) (hexec : exec (.read r) s = .next t) (hexec' : exec (.read r) s' = .next t') :
    t.x = t'.x := by
  have hlen' : s'.x.rxCnt = 3#3 := h.rxCnt.symm.trans hlen
  have hverdict : frameCrc s.params r s.x = s.x.rx2 ↔ frameCrc s'.params r s'.x = s'.x.rx2 := by
    rw [h.frameCrc_eq r, h.rx2]
  by_cases hpec : frameCrc s.params r s.x = s.x.rx2
  · rw [exec_read_of_match hr hlen hpec] at hexec
    rw [exec_read_of_match hr hlen' (hverdict.mp hpec)] at hexec'
    cases hexec
    cases hexec'
    simp only [answered, converted, framed, receivedRaw, writeAddr, readAddr, h.frameCrc_eq r, h.devAddr, h.rx0, h.rx1,
      h.rx2]
  · rw [exec_read_of_mismatch hr hlen hpec] at hexec
    rw [exec_read_of_mismatch hr hlen' (mt hverdict.mpr hpec)] at hexec'
    cases hexec
    cases hexec'
    simp only [answered, cleared, framed, writeAddr, readAddr, h.frameCrc_eq r, h.devAddr, h.rx0, h.rx1, h.rx2]

/-- Settles O34: the checks of READ have the same answers in the two cores, and where REG_ERR or LEN_ERR is the outcome,
the results are constants. -/
theorem readDependsOnlyOnReceivedBytes : Obligations.ReadDependsOnlyOnReceivedBytes := by
  intro r s s' t t' hdev h0 h1 h2 hcnt hexec hexec'
  by_cases hr : TempReg r
  · by_cases hlen : s.x.rxCnt = 3#3
    · have hx : t.x = t'.x := SameReceived.exec_read_x ⟨hdev, h0, h1, h2, hcnt⟩ hr hlen hexec hexec'
      rw [hx]
      exact ⟨rfl, rfl, rfl, rfl, rfl, rfl, rfl, fun _ _ => rfl⟩
    · rw [exec_read_of_wrong_length hr hlen] at hexec
      rw [exec_read_of_wrong_length hr (hcnt ▸ hlen)] at hexec'
      cases hexec
      cases hexec'
      exact ⟨rfl, rfl, rfl, rfl, rfl, rfl, rfl, fun _ hlen' => absurd hlen' hlen⟩
  · rw [exec_read_of_other_register hr] at hexec hexec'
    cases hexec
    cases hexec'
    exact ⟨rfl, rfl, rfl, rfl, rfl, rfl, rfl, fun hr' => absurd hr' hr⟩

end Sys2Proof.Machine
end

section
/-! PROOFS. The converter (42_convert.md): exact numbers and their rational values, the fields of a binary64 pattern, what
makes a value nearest to a number (`RoundsTo`) and that `rne64` rounds so (R142), the constants (R143), the error of each
of the two roundings (R144), and O39, O40, O41, O42, O43. -/

namespace Sys2Proof.Machine

open Sys2Proof.Safety Sys2Proof.Statements

/-! ### The exact conversion (42_convert.md R140, R141) -/

/-- Settles O39, from the definition of `conv_cc`; a raw word has 16 bits, which gives the range. -/
theorem centiCelsiusIsExact : Obligations.CentiCelsiusIsExact := by
  intro raw
  have hraw := raw.isLt
  refine ⟨?_, centiCelsius_toInt raw, ?_⟩
  · rw [convCc]
    push_cast
    ring
  · rw [convCc]
    omega

/-! ### CONVERT (42_convert.md R146) -/

theorem decodeCommand_eq_convert_iff (w : Word) (h : Half) :
    decodeCommand w = .convert h ↔ w = (h.setWidth 32 <<< 16) ||| 0x06#32 := by
  rw [decodeCommand_eq_iff (i := .convert h) rfl (decodeCommand_convert h), commandWord_of_half]
  rfl

theorem exec_convert (h : Half) (s : State) :
    exec (.convert h) s
      = .next (answered s { converted h 0#1 s.x with code := 1#4, lastOp := 0x06#8 } .completed) := rfl

/-- Settles O43: the command word of CONVERT and the effect of its body. -/
theorem convertWritesUnverifiedConversion : Obligations.ConvertWritesUnverifiedConversion :=
  ⟨decodeCommand_eq_convert_iff, exec_convert⟩

/-! ### Exact numbers -/

/-- The rational number an exact number stands for. -/
def Exact.value (q : Exact) : ℚ := q.num * (2 : ℚ) ^ q.exp

theorem value_exactOfBits (b : Double) : (exactOfBits b).value = valueOfBits b := rfl

theorem Exact.value_mul (a b : Exact) : (a.mul b).value = a.value * b.value := by
  rw [Exact.value, Exact.value, Exact.value, Exact.mul, zpow_add₀ two_ne_zero]
  push_cast
  ring

theorem two_pow_toNat_mul_zpow {e f : Int} (h : e ≤ f) : (2 : ℚ) ^ (f - e).toNat * 2 ^ e = 2 ^ f := by
  rw [← zpow_natCast, Int.toNat_of_nonneg (by omega), ← zpow_add₀ two_ne_zero, sub_add_cancel]

theorem Exact.value_sub (a b : Exact) : (a.sub b).value = a.value - b.value := by
  rw [Exact.value, Exact.value, Exact.value, Exact.sub]
  push_cast
  rw [sub_mul, mul_assoc, mul_assoc, two_pow_toNat_mul_zpow (min_le_left _ _),
    two_pow_toNat_mul_zpow (min_le_right _ _)]

/-! ### The fields of a pattern -/

/-- The pattern of a sign and 63 bits of exponent field and fraction. -/
def signMagnitude (negative : Bool) (magnitude : Nat) : Double :=
  BitVec.ofBool negative ++ BitVec.ofNat 63 magnitude

/-- The sign bit as a factor. -/
def signFactor (negative : Bool) : Int := if negative then -1 else 1

theorem signFactor_mul (negative : Bool) (m : Int) : signFactor negative * m = if negative then -m else m := by
  cases negative with
  | false => exact one_mul m
  | true => exact neg_one_mul m

theorem abs_signFactor (negative : Bool) : |(signFactor negative : ℚ)| = 1 := by
  cases negative with
  | false => norm_num [signFactor]
  | true => norm_num [signFactor]

theorem signFactor_mul_natAbs (m : Int) : signFactor (m < 0) * m.natAbs = m := by
  rw [signFactor_mul]
  simp only [decide_eq_true_eq]
  omega

section Fields

variable {negative : Bool} {magnitude : Nat}

theorem signMagnitude_toNat (h : magnitude < 2 ^ 63) :
    (signMagnitude negative magnitude).toNat = negative.toNat * 2 ^ 63 + magnitude := by
  rw [signMagnitude, BitVec.toNat_append, BitVec.toNat_ofBool, BitVec.toNat_ofNat, Nat.mod_eq_of_lt h,
    ← Nat.shiftLeft_add_eq_or_of_lt h, Nat.shiftLeft_eq]

theorem signMagnitude_field (h : magnitude < 2 ^ 63) :
    ((signMagnitude negative magnitude).extractLsb' 52 11).toNat = magnitude / 2 ^ 52 := by
  rw [BitVec.extractLsb'_toNat, signMagnitude_toNat h, Nat.shiftRight_eq_div_pow]
  omega

theorem signMagnitude_fraction (h : magnitude < 2 ^ 63) :
    ((signMagnitude negative magnitude).extractLsb' 0 52).toNat = magnitude % 2 ^ 52 := by
  rw [BitVec.extractLsb'_toNat, signMagnitude_toNat h, Nat.shiftRight_eq_div_pow]
  omega

theorem signMagnitude_msb (h : magnitude < 2 ^ 63) : (signMagnitude negative magnitude).msb = negative := by
  rw [BitVec.msb_eq_decide, signMagnitude_toNat h]
  cases negative with
  | false => exact decide_eq_false (by rw [Bool.toNat_false]; omega)
  | true => exact decide_eq_true (by rw [Bool.toNat_true]; omega)

theorem signMagnitude_getLsbD_zero (h : magnitude < 2 ^ 63) (heven : magnitude % 2 = 0) :
    (signMagnitude negative magnitude).getLsbD 0 = false := by
  rw [BitVec.getLsbD, signMagnitude_toNat h, Nat.testBit_zero]
  simp only [decide_eq_false_iff_not]
  omega

theorem isFinite64_signMagnitude (h : magnitude < 0x7FF * 2 ^ 52) :
    IsFinite64 (signMagnitude negative magnitude) := by
  intro hfield
  have hones : magnitude / 2 ^ 52 = 0x7FF := (signMagnitude_field (by omega)).symm.trans (congrArg BitVec.toNat hfield)
  omega

theorem exactOfBits_signMagnitude (h : magnitude < 2 ^ 63) :
    exactOfBits (signMagnitude negative magnitude)
      = ⟨signFactor negative
            * (if magnitude / 2 ^ 52 = 0 then magnitude % 2 ^ 52 else magnitude % 2 ^ 52 + 2 ^ 52 : Nat),
          (max (magnitude / 2 ^ 52) 1 : Nat) - 1075⟩ := by
  rw [exactOfBits, signMagnitude_field h, signMagnitude_fraction h, signMagnitude_msb h, signFactor_mul]

end Fields

/-- A significand `n` above `a` exponent steps, and a carry out of the significand, are read back as `n` units of the
last place `a - 1074`. -/
theorem valueOfBits_signMagnitude (negative : Bool) {a n : Nat} (hunit : 2 ^ 52 ≤ n ∨ a = 0) (hn : n ≤ 2 ^ 53)
    (hfin : a * 2 ^ 52 + n < 0x7FF * 2 ^ 52) :
    valueOfBits (signMagnitude negative (a * 2 ^ 52 + n)) = (signFactor negative * n : Int) * 2 ^ (a - 1074 : Int) := by
  rw [valueOfBits, exactOfBits_signMagnitude (by omega)]
  obtain hcarry | ⟨hnormal, hlt⟩ | ⟨hsub, rfl⟩ : n = 2 ^ 53 ∨ (2 ^ 52 ≤ n ∧ n < 2 ^ 53) ∨ (n < 2 ^ 52 ∧ a = 0) := by omega
  · subst hcarry
    rw [show (a * 2 ^ 52 + 2 ^ 53) / 2 ^ 52 = a + 2 by omega, show (a * 2 ^ 52 + 2 ^ 53) % 2 ^ 52 = 0 by omega,
      if_neg (by omega), max_eq_left (by omega),
      show (((a + 2 : Nat) : Int) - 1075) = (a - 1074) + 1 by omega, zpow_add_one₀ two_ne_zero]
    push_cast
    ring
  · rw [show (a * 2 ^ 52 + n) / 2 ^ 52 = a + 1 by omega, show (a * 2 ^ 52 + n) % 2 ^ 52 = n - 2 ^ 52 by omega,
      if_neg (by omega), max_eq_left (by omega), Nat.sub_add_cancel hnormal,
      show (((a + 1 : Nat) : Int) - 1075) = a - 1074 by omega]
  · rw [zero_mul, zero_add, Nat.div_eq_of_lt hsub, Nat.mod_eq_of_lt hsub, if_pos rfl]
    rfl

/-! ### Values of at most 53 significant bits -/

theorem exactOfBits_num_abs_lt (b : Double) : |(exactOfBits b).num| < 2 ^ 53 := by
  have hfraction := (b.extractLsb' 0 52).isLt
  simp only [exactOfBits]
  split <;> split <;> rw [abs_lt] <;> omega

theorem exactOfBits_exp_ge (b : Double) : -1074 ≤ (exactOfBits b).exp := by
  simp only [exactOfBits]
  omega

/-- `b` is the whole number `n` of units `2 ^ e`, at most half a unit from `q`, and even if it is half a unit away. The
unit is so fine that `q` has 53 bits above it, or it is the subnormals'. -/
structure RoundsTo (q : ℚ) (b : Double) (n e : Int) : Prop where
  finite : IsFinite64 b
  value : valueOfBits b = n * 2 ^ e
  unit : (2 : ℚ) ^ 52 * 2 ^ e ≤ |q| ∨ e = -1074
  error : |n * 2 ^ e - q| ≤ 2 ^ e / 2
  even_of_tie : |n * 2 ^ e - q| = 2 ^ e / 2 → b.getLsbD 0 = false

/-- A number of units other than the nearest is at least half a unit away. -/
theorem half_unit_le_of_ne {q u : ℚ} {n j : Int} (hu : 0 < u) (hn : |n * u - q| ≤ u / 2) (hne : j ≠ n) :
    u / 2 ≤ |j * u - q| := by
  have hgap : u ≤ |j * u - n * u| := by
    rw [← sub_mul, abs_mul, abs_of_pos hu]
    have : (1 : ℚ) ≤ |(j : ℚ) - n| := by exact_mod_cast Int.one_le_abs (sub_ne_zero.mpr hne)
    exact le_mul_of_one_le_left hu.le this
  have htriangle : |j * u - n * u| ≤ |j * u - q| + |n * u - q| := by
    rw [abs_sub_comm (n * u) q]
    exact abs_sub_le _ _ _
  linarith

/-- A binary64 value is a whole number of units, or smaller than `2 ^ 52` units. -/
theorem valueOfBits_on_grid_or_lt (c : Double) (e : Int) :
    (∃ j : Int, valueOfBits c = j * 2 ^ e) ∨ (e ≠ -1074 ∧ |valueOfBits c| < 2 ^ 52 * 2 ^ e) := by
  have hnum := exactOfBits_num_abs_lt c
  have hexp := exactOfBits_exp_ge c
  by_cases he : e ≤ (exactOfBits c).exp
  · refine .inl ⟨(exactOfBits c).num * 2 ^ ((exactOfBits c).exp - e).toNat, ?_⟩
    push_cast
    rw [mul_assoc, two_pow_toNat_mul_zpow he, valueOfBits]
  · refine .inr ⟨by omega, ?_⟩
    have hcoarse : (2 : ℚ) ^ (exactOfBits c).exp ≤ 2 ^ (e - 1) := zpow_le_zpow_right₀ one_le_two (by omega)
    have hnum' : |((exactOfBits c).num : ℚ)| < 2 ^ 53 := by exact_mod_cast hnum
    calc |valueOfBits c| = |((exactOfBits c).num : ℚ)| * 2 ^ (exactOfBits c).exp := by
          rw [valueOfBits, abs_mul, abs_of_pos (zpow_pos (two_pos (α := ℚ)) _)]
      _ < 2 ^ 53 * 2 ^ (exactOfBits c).exp := mul_lt_mul_of_pos_right hnum' (zpow_pos two_pos _)
      _ ≤ 2 ^ 53 * 2 ^ (e - 1) := mul_le_mul_of_nonneg_left hcoarse (by positivity)
      _ = 2 ^ 52 * 2 ^ e := by rw [zpow_sub_one₀ two_ne_zero]; ring

/-- A number below `r` is further from a `q` not below `r` than `r` or `-r` is. -/
theorem exists_sign_abs_sub_lt {q r w : ℚ} (hr : r ≤ |q|) (hw : |w| < r) :
    ∃ s : Int, |s * r - q| < |w - q| := by
  obtain ⟨hq, h⟩ | ⟨hq, h⟩ := abs_cases q
  · refine ⟨1, ?_⟩
    rw [abs_of_nonpos (by push_cast; linarith), abs_of_neg (by linarith [le_abs_self w])]
    push_cast; linarith [le_abs_self w]
  · refine ⟨-1, ?_⟩
    rw [abs_of_nonneg (by push_cast; linarith), abs_of_pos (by linarith [neg_abs_le w])]
    push_cast; linarith [neg_abs_le w]

/-- Among the whole numbers of units, `b` is nearest by its error; a binary64 value that is none of them is so small that
`2 ^ 52` units, of the sign of `q`, are nearer. -/
theorem RoundsTo.isNearestEven {q : ℚ} {b : Double} {n e : Int} (h : RoundsTo q b n e) : IsNearestEven q b := by
  have hu : (0 : ℚ) < 2 ^ e := zpow_pos two_pos e
  have hgrid : ∀ j : Int, |n * 2 ^ e - q| ≤ |j * 2 ^ e - q| := fun j => by
    by_cases hj : j = n
    · rw [hj]
    · exact h.error.trans (half_unit_le_of_ne hu h.error hj)
  refine ⟨h.finite, fun c _ => ?_⟩
  rw [h.value]
  obtain ⟨j, hj⟩ | ⟨he, hc⟩ := valueOfBits_on_grid_or_lt c e
  · rw [hj]
    refine ⟨hgrid j, fun heq hne => h.even_of_tie (h.error.antisymm ?_)⟩
    rw [heq]
    exact half_unit_le_of_ne hu h.error fun hjn => hne (by rw [hjn])
  · obtain ⟨s, hs⟩ := exists_sign_abs_sub_lt (h.unit.resolve_right he) hc
    have hlt : |n * 2 ^ e - q| < |valueOfBits c - q| := by
      refine lt_of_le_of_lt ?_ hs
      have := hgrid (s * 2 ^ 52)
      push_cast at this
      rwa [mul_assoc] at this
    exact ⟨hlt.le, fun heq => absurd heq hlt.ne⟩

/-- The unit is at least 53 binary places below a power of two above `q`. -/
theorem RoundsTo.exp_le {q : ℚ} {b : Double} {n e k : Int} (h : RoundsTo q b n e) (hk : -1021 ≤ k) (hq : |q| < 2 ^ k) :
    e ≤ k - 53 := by
  obtain hunit | he := h.unit
  · have hlt : (2 : ℚ) ^ (52 + e) < 2 ^ k := by
      rw [zpow_add₀ two_ne_zero]
      exact lt_of_le_of_lt hunit hq
    have := (zpow_lt_zpow_iff_right₀ one_lt_two).mp hlt
    omega
  · omega

/-! ### `roundHalfEven` -/

theorem roundHalfEven_cases (m d : Nat) :
    (roundHalfEven m d = m / 2 ^ d ∧ 2 * (m % 2 ^ d) < 2 ^ d)
      ∨ (roundHalfEven m d = m / 2 ^ d ∧ 2 * (m % 2 ^ d) = 2 ^ d ∧ m / 2 ^ d % 2 = 0)
      ∨ (roundHalfEven m d = m / 2 ^ d + 1 ∧ 2 * (m % 2 ^ d) = 2 ^ d ∧ m / 2 ^ d % 2 = 1)
      ∨ (roundHalfEven m d = m / 2 ^ d + 1 ∧ 2 ^ d < 2 * (m % 2 ^ d)) := by
  simp only [roundHalfEven]
  split_ifs <;> omega

section Remainder

variable {m d : Nat}

theorem natCast_div_two_pow (m d : Nat) : (m : ℚ) / 2 ^ d = (m / 2 ^ d : Nat) + (m % 2 ^ d : Nat) / 2 ^ d := by
  have hD : (2 : ℚ) ^ d ≠ 0 := by positivity
  rw [div_eq_iff hD, add_mul, div_mul_cancel₀ _ hD]
  exact_mod_cast (Nat.div_add_mod' m (2 ^ d)).symm

theorem mod_div_two_pow_lt_one (m d : Nat) : ((m % 2 ^ d : Nat) : ℚ) / 2 ^ d < 1 := by
  rw [div_lt_one (by positivity)]
  exact_mod_cast Nat.mod_lt m (by positivity)

theorem mod_div_two_pow_lt_half (h : 2 * (m % 2 ^ d) < 2 ^ d) : ((m % 2 ^ d : Nat) : ℚ) / 2 ^ d < 1 / 2 := by
  rw [div_lt_div_iff₀ (by positivity) two_pos]
  exact_mod_cast (by omega : m % 2 ^ d * 2 < 1 * 2 ^ d)

theorem mod_div_two_pow_eq_half (h : 2 * (m % 2 ^ d) = 2 ^ d) : ((m % 2 ^ d : Nat) : ℚ) / 2 ^ d = 1 / 2 := by
  rw [div_eq_div_iff (by positivity) two_ne_zero]
  exact_mod_cast (by omega : m % 2 ^ d * 2 = 1 * 2 ^ d)

theorem half_lt_mod_div_two_pow (h : 2 ^ d < 2 * (m % 2 ^ d)) : 1 / 2 < ((m % 2 ^ d : Nat) : ℚ) / 2 ^ d := by
  rw [div_lt_div_iff₀ two_pos (by positivity)]
  exact_mod_cast (by omega : 1 * 2 ^ d < m % 2 ^ d * 2)

end Remainder

/-- `roundHalfEven` is nearest to the quotient, and even where two numbers are. -/
theorem roundHalfEven_sub_div (m d : Nat) :
    |(roundHalfEven m d : ℚ) - m / 2 ^ d| < 1 / 2
      ∨ (|(roundHalfEven m d : ℚ) - m / 2 ^ d| = 1 / 2 ∧ roundHalfEven m d % 2 = 0) := by
  have hone := mod_div_two_pow_lt_one m d
  have hzero : 0 ≤ ((m % 2 ^ d : Nat) : ℚ) / 2 ^ d := by positivity
  rw [natCast_div_two_pow]
  obtain ⟨hr, hlt⟩ | ⟨hr, heq, hk⟩ | ⟨hr, heq, hk⟩ | ⟨hr, hgt⟩ := roundHalfEven_cases m d
  · left
    rw [hr, sub_add_cancel_left, abs_neg, abs_of_nonneg hzero]
    exact mod_div_two_pow_lt_half hlt
  · right
    rw [hr, sub_add_cancel_left, abs_neg, mod_div_two_pow_eq_half heq]
    exact ⟨abs_of_pos one_half_pos, hk⟩
  · refine .inr ⟨?_, by omega⟩
    rw [hr, Nat.cast_succ, add_sub_add_left_eq_sub, mod_div_two_pow_eq_half heq, sub_half]
    exact abs_of_pos one_half_pos
  · left
    rw [hr, Nat.cast_succ, add_sub_add_left_eq_sub, abs_of_pos (sub_pos.mpr hone)]
    linarith [half_lt_mod_div_two_pow hgt]

/-! ### `rne64` rounds to nearest even (42_convert.md R142) -/

/-- The exponent of the unit that `rne64` rounds to. -/
def Exact.unit (q : Exact) : Int := lastPlace q.num.natAbs q.exp

/-- The whole number of units that `rne64` rounds the magnitude to. -/
def Exact.significand (q : Exact) : Nat :=
  roundHalfEven (q.num.natAbs * 2 ^ (q.exp - q.unit).toNat) (q.unit - q.exp).toNat

section Rounding

variable {q : Exact}

theorem rne64_of_num_eq_zero (h : q.num = 0) : rne64 q = 0#64 := by
  rw [rne64, h, Int.natAbs_zero]
  rfl

theorem rne64_of_num_ne_zero (h : q.num ≠ 0)
    (hfin : (q.unit + 1074).toNat * 2 ^ 52 + q.significand < 0x7FF * 2 ^ 52) :
    rne64 q = signMagnitude (q.num < 0) ((q.unit + 1074).toNat * 2 ^ 52 + q.significand) := by
  rw [← min_eq_left hfin.le]
  exact if_neg (Int.natAbs_ne_zero.mpr h)

theorem Exact.abs_value (q : Exact) : |q.value| = q.num.natAbs * 2 ^ q.exp := by
  rw [Exact.value, abs_mul, abs_of_pos (zpow_pos (two_pos (α := ℚ)) _), Nat.cast_natAbs, Int.cast_abs]

theorem Exact.neg_le_unit (q : Exact) : -1074 ≤ q.unit := le_max_right _ _

/-- The magnitude has at least 53 bits above the last place, or the last place is the subnormals'. -/
theorem Exact.two_pow_unit_le (h : q.num ≠ 0) : (2 : ℚ) ^ 52 * 2 ^ q.unit ≤ |q.value| ∨ q.unit = -1074 := by
  obtain hunit | hunit : q.unit = q.exp + Nat.log2 q.num.natAbs - 52 ∨ q.unit = -1074 := max_choice _ _
  · left
    have hlog : (2 : ℚ) ^ Nat.log2 q.num.natAbs ≤ q.num.natAbs := by
      exact_mod_cast Nat.log2_self_le (Int.natAbs_ne_zero.mpr h)
    calc (2 : ℚ) ^ 52 * 2 ^ q.unit = 2 ^ Nat.log2 q.num.natAbs * 2 ^ q.exp := by
          rw [← zpow_natCast, ← zpow_natCast, ← zpow_add₀ two_ne_zero, ← zpow_add₀ two_ne_zero, hunit]
          congr 1
          push_cast
          ring
      _ ≤ q.num.natAbs * 2 ^ q.exp := mul_le_mul_of_nonneg_right hlog (zpow_pos two_pos _).le
      _ = |q.value| := q.abs_value.symm
  · exact .inr hunit

/-- The magnitude has at most 53 bits above the last place. -/
theorem Exact.abs_value_lt (q : Exact) : |q.value| < 2 ^ 53 * 2 ^ q.unit := by
  have hlog : (q.num.natAbs : ℚ) < 2 ^ (Nat.log2 q.num.natAbs + 1) := by exact_mod_cast Nat.lt_log2_self
  have hunit : q.exp + Nat.log2 q.num.natAbs - 52 ≤ q.unit := le_max_left _ _
  calc |q.value| = q.num.natAbs * 2 ^ q.exp := q.abs_value
    _ < 2 ^ (Nat.log2 q.num.natAbs + 1) * 2 ^ q.exp := mul_lt_mul_of_pos_right hlog (zpow_pos two_pos _)
    _ = 2 ^ (q.exp + Nat.log2 q.num.natAbs + 1) := by
      rw [← zpow_natCast, ← zpow_add₀ two_ne_zero]
      congr 1
      push_cast
      ring
    _ ≤ 2 ^ (53 + q.unit) := zpow_le_zpow_right₀ one_le_two (by omega)
    _ = 2 ^ 53 * 2 ^ q.unit := zpow_add₀ two_ne_zero _ _

theorem two_pow_toNat_div (e f : Int) : (2 : ℚ) ^ (e - f).toNat / 2 ^ (f - e).toNat = 2 ^ (e - f) := by
  rw [← zpow_natCast, ← zpow_natCast, ← zpow_sub₀ two_ne_zero]
  congr 1
  omega

/-- The significand is the magnitude in units of the last place, rounded half to even. -/
theorem Exact.significand_sub (q : Exact) :
    |(q.significand : ℚ) - |q.value| / 2 ^ q.unit| < 1 / 2
      ∨ (|(q.significand : ℚ) - |q.value| / 2 ^ q.unit| = 1 / 2 ∧ q.significand % 2 = 0) := by
  have hround := roundHalfEven_sub_div (q.num.natAbs * 2 ^ (q.exp - q.unit).toNat) (q.unit - q.exp).toNat
  have hunits : ((q.num.natAbs * 2 ^ (q.exp - q.unit).toNat : Nat) : ℚ) / 2 ^ (q.unit - q.exp).toNat
      = |q.value| / 2 ^ q.unit := by
    push_cast
    rw [mul_div_assoc, two_pow_toNat_div, zpow_sub₀ two_ne_zero, ← mul_div_assoc, q.abs_value, Nat.cast_natAbs,
      Int.cast_abs]
  rwa [hunits] at hround

theorem Exact.abs_significand_sub_le (q : Exact) : |(q.significand : ℚ) - |q.value| / 2 ^ q.unit| ≤ 1 / 2 :=
  q.significand_sub.elim le_of_lt fun h => h.1.le

theorem Exact.significand_le (q : Exact) : q.significand ≤ 2 ^ 53 := by
  have herr := (abs_le.mp q.abs_significand_sub_le).2
  have hlt : |q.value| / 2 ^ q.unit < 2 ^ 53 := (div_lt_iff₀ (zpow_pos two_pos _)).mpr q.abs_value_lt
  have : (q.significand : ℚ) < (2 ^ 53 + 1 : Nat) := by push_cast; linarith
  exact Nat.lt_succ_iff.mp (by exact_mod_cast this)

theorem Exact.le_significand (h : (2 : ℚ) ^ 52 * 2 ^ q.unit ≤ |q.value|) : 2 ^ 52 ≤ q.significand := by
  have herr := (abs_le.mp q.abs_significand_sub_le).1
  have hle : 2 ^ 52 ≤ |q.value| / 2 ^ q.unit := (le_div_iff₀ (zpow_pos two_pos _)).mpr h
  have : ((2 ^ 52 : Nat) : ℚ) < (q.significand + 1 : Nat) := by push_cast; linarith
  exact Nat.lt_succ_iff.mp (by exact_mod_cast this)

/-- The signed error in terms of the magnitude's. -/
theorem Exact.abs_signed_significand_sub (q : Exact) :
    |(signFactor (q.num < 0) * q.significand : Int) * (2 : ℚ) ^ q.unit - q.value|
      = |(q.significand : ℚ) - |q.value| / 2 ^ q.unit| * 2 ^ q.unit := by
  have hu : (0 : ℚ) < 2 ^ q.unit := zpow_pos two_pos _
  have hnum := signFactor_mul_natAbs q.num
  rw [Int.natCast_natAbs] at hnum
  have hsigned : q.value = signFactor (q.num < 0) * |q.value| := by
    rw [q.abs_value, Exact.value, ← mul_assoc, Nat.cast_natAbs]
    congr 1
    exact_mod_cast hnum.symm
  calc |(signFactor (q.num < 0) * q.significand : Int) * (2 : ℚ) ^ q.unit - q.value|
      = |(signFactor (q.num < 0) : ℚ) * ((q.significand - |q.value| / 2 ^ q.unit) * 2 ^ q.unit)| := by
        rw [sub_mul, div_mul_cancel₀ _ hu.ne', mul_sub, ← hsigned]
        push_cast
        ring_nf
    _ = |(q.significand : ℚ) - |q.value| / 2 ^ q.unit| * 2 ^ q.unit := by
        rw [abs_mul, abs_signFactor, one_mul, abs_mul, abs_of_pos hu]

end Rounding

theorem zero_roundsTo : RoundsTo 0 0#64 0 (-1074) where
  finite := by unfold IsFinite64; decide
  value := by
    rw [Int.cast_zero, zero_mul]
    exact zero_mul _
  unit := .inr rfl
  error := by
    rw [Int.cast_zero, zero_mul, sub_zero, abs_zero]
    positivity
  even_of_tie := fun _ => rfl

/-- `rne64` of a number of the format's range rounds it to nearest even. -/
theorem rne64_roundsTo {q : Exact} (hq : |q.value| < 2 ^ (1022 : Int)) : ∃ n e, RoundsTo q.value (rne64 q) n e := by
  by_cases hnum : q.num = 0
  · have hvalue : q.value = 0 := by rw [Exact.value, hnum, Int.cast_zero, zero_mul]
    rw [hvalue, rne64_of_num_eq_zero hnum]
    exact ⟨_, _, zero_roundsTo⟩
  have hunit := Exact.two_pow_unit_le hnum
  have hge := q.neg_le_unit
  have hle := q.significand_le
  have hexp : q.unit < 970 := by
    obtain h | h := hunit
    · rw [← zpow_natCast, ← zpow_add₀ two_ne_zero] at h
      have := (zpow_lt_zpow_iff_right₀ one_lt_two).mp (lt_of_le_of_lt h hq)
      omega
    · omega
  have hfin : (q.unit + 1074).toNat * 2 ^ 52 + q.significand < 0x7FF * 2 ^ 52 := by omega
  have hu : (0 : ℚ) < 2 ^ q.unit := zpow_pos two_pos _
  refine ⟨signFactor (q.num < 0) * q.significand, q.unit, ?_⟩
  rw [rne64_of_num_ne_zero hnum hfin]
  constructor
  case finite => exact isFinite64_signMagnitude hfin
  case value =>
    rw [valueOfBits_signMagnitude _ (hunit.imp Exact.le_significand fun h => by omega) hle hfin]
    congr 2
    omega
  case unit => exact hunit
  case error =>
    rw [q.abs_signed_significand_sub]
    exact (mul_le_mul_of_nonneg_right q.abs_significand_sub_le hu.le).trans_eq (one_div_mul_eq_div _ _)
  case even_of_tie =>
    intro htie
    rw [q.abs_signed_significand_sub] at htie
    have htie : |(q.significand : ℚ) - |q.value| / 2 ^ q.unit| = 1 / 2 :=
      mul_right_cancel₀ hu.ne' (htie.trans (by ring))
    obtain hlt | ⟨-, heven⟩ := q.significand_sub
    · exact absurd htie hlt.ne
    · exact signMagnitude_getLsbD_zero (by omega) (by omega)

/-! ### The constants (42_convert.md R143) -/

theorem valueOfBits_cScale : valueOfBits cScale = 5764607523034235 / 2 ^ 58 := by
  rw [valueOfBits, show exactOfBits cScale = ⟨5764607523034235, -58⟩ by decide]
  norm_num [zpow_neg]

theorem valueOfBits_cOffset : valueOfBits cOffset = 2402652809016115 / 2 ^ 43 := by
  rw [valueOfBits, show exactOfBits cOffset = ⟨4805305618032230, -44⟩ by decide]
  norm_num

theorem cScale_roundsTo : RoundsTo (2 / 100) cScale 5764607523034235 (-58) where
  finite := by unfold IsFinite64; decide
  value := by rw [valueOfBits_cScale]; norm_num
  unit := .inl (by norm_num)
  error := by norm_num
  even_of_tie := by norm_num

theorem cOffset_roundsTo : RoundsTo (27315 / 100) cOffset 4805305618032230 (-44) where
  finite := by unfold IsFinite64; decide
  value := by rw [valueOfBits_cOffset]; norm_num
  unit := .inl (by norm_num)
  error := by norm_num
  even_of_tie := by norm_num

/-- Settles O40: each constant is less than half a unit of the last place from the decimal it stands for. -/
theorem converterConstantsAreNearest : Obligations.ConverterConstantsAreNearest :=
  ⟨rfl, cScale_roundsTo.isNearestEven, valueOfBits_cScale, rfl, cOffset_roundsTo.isNearestEven, valueOfBits_cOffset⟩

/-! ### The two roundings of the conversion (42_convert.md R142) -/

/-- A temperature is below 2048 in magnitude, so its last place is `2 ^ -42` or finer. -/
theorem rne64_roundsTo_of_abs_lt {q : Exact} (hq : |q.value| < 2 ^ (11 : Int)) :
    ∃ n e, e ≤ -42 ∧ RoundsTo q.value (rne64 q) n e := by
  obtain ⟨n, e, h⟩ := rne64_roundsTo (hq.trans (zpow_lt_zpow_right₀ one_lt_two (by decide)))
  exact ⟨n, e, h.exp_le (by decide) hq, h⟩

theorem raw_cast_le (raw : Half) : (raw.toNat : ℚ) ≤ 65535 := by exact_mod_cast Nat.le_of_lt_succ raw.isLt

theorem convProduct_roundsTo (raw : Half) :
    ∃ k e, e ≤ -42 ∧ RoundsTo (raw.toNat * valueOfBits cScale) (convProduct raw) k e := by
  have hvalue : (Exact.mul ⟨raw.toNat, 0⟩ (exactOfBits cScale)).value = raw.toNat * valueOfBits cScale := by
    rw [Exact.value_mul, value_exactOfBits, Exact.value, zpow_zero, mul_one, Int.cast_natCast]
  rw [← hvalue, convProduct]
  refine rne64_roundsTo_of_abs_lt ?_
  rw [hvalue, valueOfBits_cScale, abs_of_nonneg (by positivity)]
  have := raw_cast_le raw
  norm_num
  linarith

/-- A whole number `k` of units `2 ^ -42` nearest to the product with `C_SCALE` is at most 30 fiftieths of a unit from the
product with 0.02. The excess of `C_SCALE` over 0.02 alone would give a little more, but the distance is a whole number of
fiftieths. -/
theorem abs_sub_exact_product_le_of_units {r : Nat} (hr : r ≤ 65535) {k : Int}
    (h : |(k : ℚ) - r * (5764607523034235 / 2 ^ 16)| ≤ 1 / 2) : |(k : ℚ) - r * (2 ^ 42 / 50)| ≤ 3 / 5 := by
  obtain ⟨hlow, hhigh⟩ := abs_le.mp h
  have hlow' : (5764607523034235 * r : Int) ≤ 65536 * k + 32768 := by
    have : (5764607523034235 * r : ℚ) ≤ 65536 * k + 32768 := by linarith
    exact_mod_cast this
  have hhigh' : (65536 * k : Int) ≤ 5764607523034235 * r + 32768 := by
    have : (65536 * k : ℚ) ≤ 5764607523034235 * r + 32768 := by linarith
    exact_mod_cast this
  have hfifty : |50 * k - 4398046511104 * (r : Int)| ≤ 30 := by
    rw [abs_le]
    omega
  have hfifty' : |50 * (k : ℚ) - 4398046511104 * r| ≤ 30 := by exact_mod_cast hfifty
  obtain ⟨hfiftyLow, hfiftyHigh⟩ := abs_le.mp hfifty'
  rw [abs_le]
  constructor <;> linarith

/-- With the unit `2 ^ -42` the error is counted in fiftieths of it; with a finer unit, half a unit leaves room for the
excess of `C_SCALE`. -/
theorem abs_valueOfBits_convProduct_sub_le (raw : Half) :
    |valueOfBits (convProduct raw) - raw.toNat * (2 / 100)| ≤ 3 / 5 * 2 ^ (-42 : Int) := by
  obtain ⟨k, e, he, h⟩ := convProduct_roundsTo raw
  have hraw := raw_cast_le raw
  have herr := h.error
  rw [← h.value, valueOfBits_cScale] at herr
  obtain rfl | hfine : e = -42 ∨ e ≤ -43 := by omega
  · have hunits : |(k : ℚ) - raw.toNat * (5764607523034235 / 2 ^ 16)| ≤ 1 / 2 := by
      rw [h.value] at herr
      rw [abs_le] at herr ⊢
      norm_num at herr ⊢
      obtain ⟨hlow, hhigh⟩ := herr
      constructor <;> linarith
    have hfifty := abs_sub_exact_product_le_of_units (Nat.le_of_lt_succ raw.isLt) hunits
    rw [h.value]
    rw [abs_le] at hfifty ⊢
    norm_num at hfifty ⊢
    obtain ⟨hlow, hhigh⟩ := hfifty
    constructor <;> linarith
  · have hstep : (2 : ℚ) ^ e ≤ 2 ^ (-43 : Int) := zpow_le_zpow_right₀ one_le_two hfine
    have hnonneg : (0 : ℚ) ≤ raw.toNat := Nat.cast_nonneg _
    rw [abs_le] at herr ⊢
    norm_num at herr hstep ⊢
    obtain ⟨hlow, hhigh⟩ := herr
    constructor <;> linarith

theorem convF64_roundsTo (raw : Half) :
    ∃ n e, e ≤ -42 ∧ RoundsTo (valueOfBits (convProduct raw) - valueOfBits cOffset) (convF64 raw) n e := by
  rw [← value_exactOfBits, ← value_exactOfBits, ← Exact.value_sub, convF64]
  refine rne64_roundsTo_of_abs_lt ?_
  have hproduct := abs_valueOfBits_convProduct_sub_le raw
  have hraw := raw_cast_le raw
  have hnonneg : (0 : ℚ) ≤ raw.toNat := Nat.cast_nonneg _
  rw [Exact.value_sub, value_exactOfBits, value_exactOfBits, valueOfBits_cOffset]
  rw [abs_le] at hproduct
  rw [abs_lt]
  norm_num at hproduct ⊢
  obtain ⟨hlow, hhigh⟩ := hproduct
  constructor <;> linarith

/-- Settles O41: both roundings are of numbers below 2048, where `rne64` rounds to nearest even. -/
theorem convF64RoundsEachStepToNearestEven : Obligations.ConvF64RoundsEachStepToNearestEven := by
  intro raw
  obtain ⟨_, _, _, hproduct⟩ := convProduct_roundsTo raw
  obtain ⟨_, _, _, hdifference⟩ := convF64_roundsTo raw
  exact ⟨convProduct raw, hproduct.isNearestEven, hdifference.isNearestEven⟩

/-! ### Accuracy (42_convert.md R144) -/

/-- The errors of the product, of `C_OFFSET` and of the difference add up to at most 1.2 units of `2 ^ -42`. -/
theorem abs_valueOfBits_convF64_sub_le (raw : Half) :
    |valueOfBits (convF64 raw) - (convCc raw : ℚ) / 100| ≤ 273 / 10 ^ 15 := by
  obtain ⟨n, e, he, h⟩ := convF64_roundsTo raw
  have hstep : (2 : ℚ) ^ e ≤ 2 ^ (-42 : Int) := zpow_le_zpow_right₀ one_le_two he
  have hproduct := abs_valueOfBits_convProduct_sub_le raw
  have herr := h.error
  rw [← h.value, valueOfBits_cOffset] at herr
  rw [convCc]
  push_cast
  rw [abs_le] at hproduct herr ⊢
  norm_num at hproduct hstep herr ⊢
  obtain ⟨hproductLow, hproductHigh⟩ := hproduct
  obtain ⟨hlow, hhigh⟩ := herr
  constructor <;> linarith

/-- Zero and the subnormals are below every centi-degree. -/
theorem abs_valueOfBits_lt_of_field_eq_zero {b : Double} (h : b.extractLsb' 52 11 = 0#11) :
    |valueOfBits b| < 1 / 200 := by
  have hexp : (exactOfBits b).exp = -1074 := by simp [exactOfBits, h]
  have hnum : |((exactOfBits b).num : ℚ)| < 2 ^ 53 := by exact_mod_cast exactOfBits_num_abs_lt b
  have hu : (0 : ℚ) < 2 ^ (-1074 : Int) := zpow_pos two_pos _
  calc |valueOfBits b| = |((exactOfBits b).num : ℚ)| * 2 ^ (-1074 : Int) := by
        rw [valueOfBits, hexp, abs_mul, abs_of_pos hu]
    _ < 2 ^ 53 * 2 ^ (-1074 : Int) := mul_lt_mul_of_pos_right hnum hu
    _ ≤ 2 ^ 53 * 2 ^ (-61 : Int) := by gcongr <;> norm_num
    _ < 1 / 200 := by norm_num

/-- Settles O42. The value is so near to an odd number of hundredths that it is neither as small as a subnormal nor nearer
to another hundredth. -/
theorem convF64IsAccurate : Obligations.ConvF64IsAccurate := by
  intro raw
  have herr := abs_valueOfBits_convF64_sub_le raw
  obtain ⟨_, _, _, hround⟩ := convF64_roundsTo raw
  refine ⟨fun hfield => ?_, hround.finite, herr, ?_⟩
  · have hsmall := abs_valueOfBits_lt_of_field_eq_zero hfield
    have hodd : (1 : ℚ) ≤ |(convCc raw : ℚ)| := by
      have : convCc raw ≠ 0 := by rw [convCc]; omega
      exact_mod_cast Int.one_le_abs this
    have htriangle := abs_sub_abs_le_abs_sub ((convCc raw : ℚ) / 100) (valueOfBits (convF64 raw))
    rw [abs_sub_comm, abs_div, abs_of_pos (by norm_num : (0 : ℚ) < 100)] at htriangle
    linarith
  · rw [round_eq_iff, Set.mem_Ico]
    obtain ⟨hlow, hhigh⟩ := abs_le.mp herr
    constructor <;> linarith

end Sys2Proof.Machine
end

section
/-! PROOFS. Control commands and the register port (43_control.md): the access that an instruction is (R167), malformed
accesses, NOP, RX.CLEAR, SRST and ILLEGAL (R160 to R162, R166), RXPUSH and WR (R163, R164), the registers as numbers
(R165), and O5, O8, O11, O16, O35, O38, O46, O47, O48. -/

namespace Sys2Proof.Machine

open Sys2Proof.Safety Sys2Proof.Statements

/-! ### The access that an instruction is (43_control.md R167) -/

/-- A well-formed instruction is one access, the one that encodes it. -/
theorem decode_eq_instr_iff {i : Instr} (hwf : i.wellFormed = true) (base : Nat) (a : Access) :
    decode base a = .instr i ↔ a = encode base i := by
  constructor
  · intro h
    exact (encodeInvertsDecode base a i h).2.symm
  · rintro rfl
    exact decode_encode base hwf

/-- The step of a pending access that decodes to an instruction is that instruction. -/
theorem step_of_decode_eq_instr {s : State} {a : Access} {rest : List HostEvent} {i : Instr}
    (hp : s.pending = .access a :: rest) (hline : s.resetLine = false) (hd : decode s.params.base a = .instr i) :
    step s = exec i { s with pending := rest } := by
  rw [step_of_access hp hline]
  exact hostAccess_of_instr (s := { s with pending := rest }) hd

/-- Settles O8; what an access decodes to is well-formed, so that hypothesis is not needed. -/
theorem stepRunsDecodedInstruction : Obligations.StepRunsDecodedInstruction :=
  fun _ _ _ _ hp hline hd _ => step_of_decode_eq_instr hp hline hd

/-! ### Malformed accesses (20_memory.md R62, R63, 60_exceptions.md R186) -/

theorem malformed_iff (base : Nat) (a : Access) : Malformed base a ↔ legalAccess base a = false := by
  rw [← Bool.not_eq_true]
  cases a with
  | read addr n =>
    rw [legalAccess_read_iff, Malformed]
    tauto
  | write addr n be v =>
    rw [legalAccess_write_iff, Malformed]
    tauto

theorem exists_decode_eq_instr_of_legal {base : Nat} {a : Access} (hw : inWindow base a = true)
    (hl : legalAccess base a = true) : ∃ i, decode base a = .instr i := by
  obtain ⟨reg, rfl⟩ | ⟨reg, v, rfl⟩ := decode_legal hw hl
  · exact ⟨.rd reg, decode_read_access base reg⟩
  · exact ⟨decodeWrite reg v, decode_write_access base reg v⟩

theorem step_of_malformed {s : State} {a : Access} {rest : List HostEvent} (hp : s.pending = .access a :: rest)
    (hline : s.resetLine = false) (hw : inWindow s.params.base a = true) (hl : legalAccess s.params.base a = false) :
    step s = .next { s with pending := rest, replies := s.replies ++ [.busError a.addr] } := by
  rw [step_of_access hp hline]
  exact hostAccess_of_busError (s := { s with pending := rest }) (decode_malformed hw hl)

/-- Settles O11: a malformed access is a BusError before any decoding, and any other access of the window decodes to an
instruction, whose answer is no error response. -/
theorem exactlyMalformedAccessesAreBusErrors : Obligations.ExactlyMalformedAccessesAreBusErrors := by
  intro s a rest hp hline hin
  have hw := (inWindow_iff s.params.base a).mpr hin
  rw [malformed_iff, Bool.not_eq_false]
  refine ⟨step_of_malformed hp hline hw, fun hl => ?_⟩
  obtain ⟨i, hd⟩ := exists_decode_eq_instr_of_legal hw hl
  obtain ⟨x, r, hexec, hr⟩ := exec_eq_answered i { s with pending := rest }
  exact ⟨_, r, (step_of_decode_eq_instr hp hline hd).trans hexec, rfl, hr⟩

/-! ### NOP, RX.CLEAR and SRST (43_control.md R160 to R162) -/

theorem decodeCommand_eq_nop_iff (w : Word) : decodeCommand w = .nop ↔ w = 0x00000000#32 :=
  decodeCommand_eq_iff (i := .nop) rfl decodeCommand_nop w

theorem decodeCommand_eq_rxClear_iff (w : Word) : decodeCommand w = .rxClear ↔ w = 0x00000007#32 :=
  decodeCommand_eq_iff (i := .rxClear) rfl decodeCommand_rxClear w

theorem decodeCommand_eq_srst_iff (w : Word) : decodeCommand w = .srst ↔ w = 0x00000008#32 :=
  decodeCommand_eq_iff (i := .srst) rfl decodeCommand_srst w

theorem exec_nop (s : State) :
    exec .nop s = .next (answered s { s.x with code := 1#4, lastOp := 0x00#8 } .completed) := rfl

theorem exec_rxClear (s : State) :
    exec .rxClear s = .next (answered s { emptied s.x with code := 1#4, lastOp := 0x07#8 } .completed) := rfl

theorem exec_srst (s : State) : exec .srst s = .next (answered s Elements.reset .completed) := rfl

/-- Settles O46: the decoder reads every bit of the word, and the effect is the body of the command. -/
theorem nopReportsSuccess : Obligations.NopReportsSuccess := ⟨decodeCommand_eq_nop_iff, exec_nop⟩

/-- Settles O38: the decoder reads every bit of the word, and the effect is the body of the command. -/
theorem rxClearEmptiesBuffer : Obligations.RxClearEmptiesBuffer := ⟨decodeCommand_eq_rxClear_iff, exec_rxClear⟩

/-- Settles O16: the reset value of LAST_OP overwrites the opcode that the decoder has put there. -/
theorem softResetResetsEveryElement : Obligations.SoftResetResetsEveryElement :=
  ⟨decodeCommand_eq_srst_iff, exec_srst⟩

/-! ### ILLEGAL (43_control.md R166) -/

theorem cmdOp_eq_setWidth (w : Word) : cmdOp w = w.setWidth 8 := (BitVec.setWidth_eq_extractLsb' (by decide)).symm

theorem command_toNat_eq_fields (w : Word) :
    w.toNat = (cmdArg16 w).toNat * 2 ^ 16 + ((cmdArg8 w).toNat * 2 ^ 8 + (cmdOp w).toNat) := by
  rw [← commandWord_toNat, commandWord_fields]

theorem le_toNat_iff_arguments_ne_zero (w : Word) : 2 ^ 8 ≤ w.toNat ↔ ¬ (cmdArg8 w = 0#8 ∧ cmdArg16 w = 0#16) := by
  rw [command_toNat_eq_fields w, BitVec.toNat_eq, BitVec.toNat_eq]
  simp only [BitVec.toNat_ofNat]
  omega

theorem le_toNat_iff_cmdArg16_ne_zero (w : Word) : 2 ^ 16 ≤ w.toNat ↔ cmdArg16 w ≠ 0#16 := by
  rw [command_toNat_eq_fields w, ne_eq, BitVec.toNat_eq]
  simp only [BitVec.toNat_ofNat]
  omega

theorem toNat_div_mod_iff_cmdArg8_ne_zero (w : Word) : w.toNat / 2 ^ 8 % 2 ^ 8 ≠ 0 ↔ cmdArg8 w ≠ 0#8 := by
  rw [command_toNat_eq_fields w, ne_eq, ne_eq, BitVec.toNat_eq]
  simp only [BitVec.toNat_ofNat]
  omega

/-- An opcode of format N (30_encoding.md R81): the word has no operand. -/
abbrev FormatN (op : Byte) : Prop := op ∈ [0x00#8, 0x01#8, 0x07#8, 0x08#8]

/-- An opcode of format B (30_encoding.md R81): ARG8 is the operand. -/
abbrev FormatB (op : Byte) : Prop := op ∈ [0x02#8, 0x03#8, 0x04#8, 0x05#8]

/-- An opcode of format H (30_encoding.md R81): ARG16 is the operand. -/
abbrev FormatH (op : Byte) : Prop := op = 0x06#8

/-- Every opcode is free or has exactly one of the three formats (30_encoding.md R81, R83). -/
theorem opcode_format_cases (op : Byte) :
    (0x09#8 ≤ op ∧ ¬ FormatN op ∧ ¬ FormatB op ∧ ¬ FormatH op)
      ∨ (¬ 0x09#8 ≤ op ∧ FormatN op ∧ ¬ FormatB op ∧ ¬ FormatH op)
      ∨ (¬ 0x09#8 ≤ op ∧ ¬ FormatN op ∧ FormatB op ∧ ¬ FormatH op)
      ∨ (¬ 0x09#8 ≤ op ∧ ¬ FormatN op ∧ ¬ FormatB op ∧ FormatH op) := by
  decide +revert

/-- R86's predicate `legal`, format by format. -/
theorem commandLegal_iff (w : Word) :
    commandLegal w = true ↔
      FormatN (cmdOp w) ∧ cmdArg8 w = 0#8 ∧ cmdArg16 w = 0#16 ∨ FormatB (cmdOp w) ∧ cmdArg16 w = 0#16
        ∨ FormatH (cmdOp w) ∧ cmdArg8 w = 0#8 := by
  simp only [commandLegal, Bool.or_eq_true, Bool.and_eq_true, decide_eq_true_eq, beq_iff_eq, and_assoc, or_assoc]

/-- A word is illegal by its opcode, or by a field that the format of its opcode does not use. -/
theorem commandLegal_eq_false_iff (w : Word) :
    commandLegal w = false ↔
      0x09#8 ≤ cmdOp w ∨ FormatN (cmdOp w) ∧ ¬ (cmdArg8 w = 0#8 ∧ cmdArg16 w = 0#16)
        ∨ FormatB (cmdOp w) ∧ cmdArg16 w ≠ 0#16 ∨ FormatH (cmdOp w) ∧ cmdArg8 w ≠ 0#8 := by
  rw [← Bool.not_eq_true, commandLegal_iff]
  obtain ⟨hfree, hN, hB, hH⟩ | ⟨hfree, hN, hB, hH⟩ | ⟨hfree, hN, hB, hH⟩ | ⟨hfree, hN, hB, hH⟩ :=
    opcode_format_cases (cmdOp w)
  · simp only [hfree, hN, hB, hH, true_or, false_and, or_self, not_false_eq_true]
  · simp only [hfree, hN, hB, hH, false_and, true_and, or_false, false_or]
  · simp only [hfree, hN, hB, hH, false_and, true_and, or_false, false_or, ne_eq]
  · simp only [hfree, hN, hB, eq_true hH, false_and, true_and, false_or, ne_eq]

theorem matchesNoRow_iff (w : Word) : MatchesNoRow w ↔ commandLegal w = false := by
  rw [commandLegal_eq_matchesSomeRow]
  simp [MatchesNoRow, matchesSomeRow, OpRow.selects]

theorem decodeCommand_eq_illegal_iff (w : Word) : decodeCommand w = .illegal w ↔ commandLegal w = false := by
  constructor
  · intro h
    have hwf := (decodeCommand_encodes w).1
    rw [h, Instr.wellFormed, ← commandLegal_eq_matchesSomeRow] at hwf
    simpa using hwf
  · exact decodeCommand_of_not_legal

theorem exec_illegal (w : Word) (s : State) :
    exec (.illegal w) s = .next (answered s { s.x with code := 5#4, lastOp := cmdOp w } .completed) := rfl

/-- Settles O5: the map, the decoder and the fields agree on the legal words, and the effect is the body of ILLEGAL. -/
theorem illegalWordsOnlyChangeStatus : Obligations.IllegalWordsOnlyChangeStatus := by
  refine ⟨fun w => ?_, fun w => ?_, fun w s _ => ?_⟩
  · rw [decodeCommand_eq_illegal_iff, matchesNoRow_iff]
  · rw [matchesNoRow_iff, commandLegal_eq_false_iff, le_toNat_iff_arguments_ne_zero, le_toNat_iff_cmdArg16_ne_zero,
      toNat_div_mod_iff_cmdArg8_ne_zero, cmdOp_eq_setWidth]
  · rw [exec_illegal, cmdOp_eq_setWidth]

/-! ### RXPUSH and WR (43_control.md R163, R164) -/

theorem exec_rxPush (v : Word) (s : State) :
    exec (.rxPush v) s = .next (answered s (s.x.push (v.setWidth 8)) .completed) := by
  rw [← pushedByte_eq_setWidth]
  rfl

/-- Settles O35: RXPUSH is the write that encodes it, and its effect is one push of the low byte. -/
theorem rxPushAppendsOneByte : Obligations.RxPushAppendsOneByte :=
  ⟨fun base a v => decode_eq_instr_iff (i := .rxPush v) rfl base a, exec_rxPush⟩

/-- Settles O47: WR to such a register is well-formed, so it is the write that encodes it. -/
theorem writesToReadOnlyRegistersAreIgnored : Obligations.WritesToReadOnlyRegistersAreIgnored := by
  intro reg v hcmd hrx
  have hwf : (Instr.wr reg v).wellFormed = true := by simp [Instr.wellFormed, hcmd, hrx]
  refine ⟨fun base a => ?_, exec_wr reg v⟩
  rw [decode_eq_instr_iff hwf, encode_of_write base rfl rfl]

/-! ### The registers as numbers (43_control.md R165, 10_state.md R25 to R42) -/

theorem zeroExtend_eq_ofNat {m : Nat} (a : BitVec m) (w : Nat) : a.zeroExtend w = BitVec.ofNat w a.toNat :=
  (BitVec.ofNat_toNat w a).symm

/-- A field put above a number that fits below it. -/
theorem zeroExtend_shiftLeft_or_ofNat {m k n : Nat} (a : BitVec m) (hk : m + k ≤ 32) (hn : n < 2 ^ k) :
    (a.zeroExtend 32 <<< k) ||| BitVec.ofNat 32 n = BitVec.ofNat 32 (2 ^ k * a.toNat + n) := by
  have htop : a.toNat * 2 ^ k + 2 ^ k ≤ 2 ^ 32 :=
    calc a.toNat * 2 ^ k + 2 ^ k = (a.toNat + 1) * 2 ^ k := (Nat.succ_mul _ _).symm
      _ ≤ 2 ^ m * 2 ^ k := Nat.mul_le_mul_right _ a.isLt
      _ = 2 ^ (m + k) := (pow_add 2 m k).symm
      _ ≤ 2 ^ 32 := Nat.pow_le_pow_right (by decide) hk
  have ha : (a.zeroExtend 32).toNat = a.toNat := toNat_zeroExtend_of_le a (by omega)
  have hb : (BitVec.ofNat 32 n).toNat = n := by rw [BitVec.toNat_ofNat, Nat.mod_eq_of_lt (by omega)]
  apply BitVec.eq_of_toNat_eq
  rw [toNat_shiftLeft_or _ _ k (by rw [ha]; omega) (by omega), ha, hb, Nat.mul_comm (2 ^ k),
    BitVec.toNat_ofNat, Nat.mod_eq_of_lt (by omega)]

/-- The four byte lanes of a word, the top one not always a whole byte. -/
theorem byteLanes_eq_ofNat {m : Nat} (a : BitVec m) (hm : m ≤ 8) (b c d : Byte) :
    (a.zeroExtend 32 <<< 24) ||| (b.zeroExtend 32 <<< 16) ||| (c.zeroExtend 32 <<< 8) ||| d.zeroExtend 32
      = BitVec.ofNat 32 (2 ^ 24 * a.toNat + 2 ^ 16 * b.toNat + 2 ^ 8 * c.toNat + d.toNat) := by
  rw [BitVec.or_assoc, BitVec.or_assoc, zeroExtend_eq_ofNat d, zeroExtend_shiftLeft_or_ofNat c (by omega) (by omega),
    zeroExtend_shiftLeft_or_ofNat b (by omega) (by omega), zeroExtend_shiftLeft_or_ofNat a (by omega) (by omega),
    Nat.add_assoc, Nat.add_assoc]

theorem statusWord_eq_ofNat (x : Elements) :
    statusWord x = BitVec.ofNat 32 (256 * x.lastOp.toNat + 16 * x.tver.toNat + x.code.toNat) := by
  rw [statusWord, BitVec.or_assoc, zeroExtend_eq_ofNat x.code,
    zeroExtend_shiftLeft_or_ofNat x.tver (by omega) (by omega),
    zeroExtend_shiftLeft_or_ofNat x.lastOp (by omega) (by omega), Nat.add_assoc]
  rfl

theorem frame1_eq_ofNat (x : Elements) :
    (x.fpec.zeroExtend 32 <<< 8) ||| x.fb4.zeroExtend 32 = BitVec.ofNat 32 (2 ^ 8 * x.fpec.toNat + x.fb4.toNat) := by
  rw [zeroExtend_eq_ofNat x.fb4, zeroExtend_shiftLeft_or_ofNat x.fpec (by omega) x.fb4.isLt]

theorem lowHalf_eq_ofNat (d : Double) : d.extractLsb' 0 32 = BitVec.ofNat 32 (d.toNat % 2 ^ 32) := by
  apply BitVec.eq_of_toNat_eq
  rw [BitVec.extractLsb'_toNat, BitVec.toNat_ofNat, Nat.shiftRight_zero, Nat.mod_mod]

theorem highHalf_eq_ofNat (d : Double) : d.extractLsb' 32 32 = BitVec.ofNat 32 (d.toNat / 2 ^ 32) := by
  rw [BitVec.extractLsb', Nat.shiftRight_eq_div_pow]

/-- Settles O48: RD is the read that encodes it, and a register's word is the number its fields make. -/
theorem readReturnsTheRegister : Obligations.ReadReturnsTheRegister := by
  refine ⟨fun base a reg => ?_, fun reg s => ?_⟩
  · rw [decode_eq_instr_iff rfl, encode_rd]
  · rw [exec_rd]
    cases reg
    case status => rw [readValue, statusWord_eq_ofNat]; rfl
    case devAddr => rw [readValue, zeroExtend_eq_ofNat]; rfl
    case rxBuf => rw [readValue, byteLanes_eq_ofNat s.x.rxCnt (by decide)]; rfl
    case crc => rw [readValue, zeroExtend_eq_ofNat]; rfl
    case frame0 => rw [readValue, byteLanes_eq_ofNat s.x.fb3 (by decide)]; rfl
    case frame1 => rw [readValue, frame1_eq_ofNat]; rfl
    case tempF64Lo => rw [readValue, lowHalf_eq_ofNat]; rfl
    case tempF64Hi => rw [readValue, highHalf_eq_ofNat]; rfl
    case raw => rw [readValue, zeroExtend_eq_ofNat]; rfl
    case id | cmd | rxByte | tempCc | reserved34 | reserved38 | reserved3C => rfl

end Sys2Proof.Machine
end

section
/-! PROOFS. Exceptions (60_exceptions.md): accesses outside the window (R186), the outcome code of each command (R187),
and O12, O32. -/

namespace Sys2Proof.Machine

open Sys2Proof.Safety Sys2Proof.Statements

/-! ### Accesses outside the window (60_exceptions.md R186) -/

/-- Settles O12: the decoder looks at the window before anything else, and the step faults on it. -/
theorem accessOutsideWindowFaults : Obligations.AccessOutsideWindowFaults := by
  intro s a rest hp hline hout
  have hw : inWindow s.params.base a = false := Bool.eq_false_iff.mpr (mt (inWindow_iff s.params.base a).mp hout)
  rw [step_of_access hp hline]
  exact hostAccess_of_outside (s := { s with pending := rest }) (decode_outside hw)

/-! ### Which command a legal word is, by its opcode (30_encoding.md R86) -/

theorem legal_of_matchesRow {w : Word} (h : ¬ MatchesNoRow w) : commandLegal w = true := by
  rwa [matchesNoRow_iff, Bool.not_eq_false] at h

theorem decodeCommand_of_srst_opcode {w : Word} (hl : commandLegal w = true) (hop : cmdOp w = 0x08#8) :
    decodeCommand w = .srst := by
  simp [decodeCommand, hl, hop]

/-- A command that makes none of the checks of 60_exceptions.md R187, and is not SRST. -/
inductive Unchecked : Instr → Prop where
  | nop : Unchecked .nop
  | crcInit : Unchecked .crcInit
  | crcFeed (b : Byte) : Unchecked (.crcFeed b)
  | convert (h : Half) : Unchecked (.convert h)
  | rxClear : Unchecked .rxClear

theorem decodeCommand_unchecked {w : Word} (hl : commandLegal w = true)
    (hop : cmdOp w ∈ [0x00#8, 0x01#8, 0x02#8, 0x06#8, 0x07#8]) : Unchecked (decodeCommand w) := by
  rw [decodeCommand, if_pos hl]
  generalize cmdOp w = op at hop ⊢
  fin_cases hop
  · exact .nop
  · exact .crcInit
  · exact .crcFeed (cmdArg8 w)
  · exact .convert (cmdArg16 w)
  · exact .rxClear

/-! ### The code that each command leaves (60_exceptions.md R181 to R187) -/

section Codes

variable {i : Instr} {r : Byte} {s t : State}

theorem exec_code_eq {x : Elements} {reply : Reply} (hexec : exec i s = .next t)
    (heffect : exec i s = .next (answered s x reply)) : t.x.code = x.code := by
  cases hexec.symm.trans heffect
  rfl

theorem exec_code_of_unchecked (hi : Unchecked i) (hexec : exec i s = .next t) : t.x.code = 1#4 := by
  cases hi with
  | nop => exact exec_code_eq hexec (exec_nop s)
  | crcInit => exact exec_code_eq hexec (exec_crcInit s)
  | crcFeed b => exact exec_code_eq hexec (exec_crcFeed b s)
  | convert h => exact exec_code_eq hexec (exec_convert h s)
  | rxClear => exact exec_code_eq hexec (exec_rxClear s)

theorem exec_code_of_wrong_length (hi : i = .frame r ∨ i = .check r ∨ i = .read r ∧ TempReg r)
    (hlen : s.x.rxCnt ≠ 3#3) (hexec : exec i s = .next t) : t.x.code = 3#4 := by
  obtain ⟨u, hexec', hcode, -, -⟩ := exec_of_wrong_length hi hlen
  cases hexec.symm.trans hexec'
  exact hcode

/-- READ and CHECK on three bytes report the comparison of 41_frame_check.md R125. -/
theorem exec_code_of_comparison (hi : i = .read r ∧ TempReg r ∨ i = .check r) (hlen : s.x.rxCnt = 3#3)
    (hexec : exec i s = .next t) : t.x.code = if frameCrc s.params r s.x = s.x.rx2 then 1#4 else 2#4 := by
  obtain ⟨rfl, hr⟩ | rfl := hi
  · by_cases hpec : frameCrc s.params r s.x = s.x.rx2
    · rw [if_pos hpec]
      exact exec_code_eq hexec (exec_read_of_match hr hlen hpec)
    · rw [if_neg hpec]
      exact exec_code_eq hexec (exec_read_of_mismatch hr hlen hpec)
  · exact exec_code_eq hexec (exec_check_of_complete hlen)

end Codes

/-- Settles O32: the decoder makes the CMD_ERR check, and each decoded command the checks left, in order. -/
theorem outcomeCodePriority : Obligations.OutcomeCodePriority := by
  intro w s t hexec
  refine ⟨fun hno => ?_, fun hrow hop => ?_, fun hrow hop => ?_, fun r => ⟨fun hi hr => ?_, fun hi hlen => ?_,
    fun hi hlen => exec_code_of_comparison hi hlen hexec, fun hi hlen => ?_⟩⟩
  · rw [decodeCommand_of_not_legal ((matchesNoRow_iff w).mp hno)] at hexec
    exact exec_code_eq hexec (exec_illegal w s)
  · rw [← cmdOp_eq_setWidth] at hop
    rw [decodeCommand_of_srst_opcode (legal_of_matchesRow hrow) hop] at hexec
    exact exec_code_eq hexec (exec_srst s)
  · rw [← cmdOp_eq_setWidth] at hop
    exact exec_code_of_unchecked (decodeCommand_unchecked (legal_of_matchesRow hrow) hop) hexec
  · rw [hi] at hexec
    exact exec_code_eq hexec (exec_read_of_other_register hr)
  · exact exec_code_of_wrong_length (r := r) (by tauto) hlen hexec
  · rw [hi] at hexec
    exact exec_code_eq hexec (exec_frame_of_complete hlen)

end Sys2Proof.Machine
end

section
/-! PROOFS. Reset and hazards (70_reset_and_hazards.md): the reset input and what is read after it (R200, R201, R203),
the latency (R211), soft and hard reset side by side (R202), the answer to every access of the window (R216, R217), the
two halves of TEMP_F64 (R212), and O13, O15, O17, O18, O22, O45, O55. -/

namespace Sys2Proof.Machine

open Sys2Proof.Safety Sys2Proof.Statements

/-! ### The reset input (70_reset_and_hazards.md R200, R201, R203) -/

/-- Settles O13: the step looks at the reset input before it looks at the access. -/
theorem accessDuringResetRefused : Obligations.AccessDuringResetRefused := by
  intro s a rest hp hline
  rw [step_of_cons hp]
  exact if_pos hline

theorem step_of_pending_assertReset {s : State} {rest : List HostEvent} (hp : s.pending = .assertReset :: rest) :
    step s = .next { s with pending := rest, resetLine := true } := step_of_cons hp

theorem step_of_pending_releaseReset {s : State} {rest : List HostEvent} (hp : s.pending = .releaseReset :: rest)
    (hline : s.resetLine = true) :
    step s = .next { s with pending := rest, x := Elements.reset, resetLine := false } := by
  rw [step_of_cons hp]
  exact congrArg Host.Outcome.next (releaseReset_of_asserted (s := { s with pending := rest }) hline)

/-- Settles O15: the first step asserts the reset input, so the second finds it asserted and resets the elements. -/
theorem resetInputResetsEveryElement : Obligations.ResetInputResetsEveryElement :=
  fun _ _ hp => ⟨_, step_of_pending_assertReset hp, step_of_pending_releaseReset rfl rfl⟩

theorem exec_rd_resetWith {p : Params} {reg : Reg} {v : Word} (hv : readValue p Elements.reset reg = v) :
    exec (.rd reg) (State.resetWith p) = .next { State.resetWith p with replies := [.data v] } := by
  rw [← hv]
  rfl

/-- Settles O17: RD answers the register's value and changes nothing else; register by register, that value is the one
the reset elements show. -/
theorem registersAfterReset : Obligations.RegistersAfterReset := by
  intro p reg
  refine exec_rd_resetWith ?_
  cases reg <;> rfl

/-! ### The latency (70_reset_and_hazards.md R211) -/

/-- Settles O22: the latency is neither the device address nor the window's place, and the step's next state has the old
parameters. -/
theorem latencyIsUnobservable : Obligations.LatencyIsUnobservable := by
  intro s n
  refine (step_withParams (q := { s.params with cmdLatency := n }) rfl rfl).trans ?_
  cases h : step s with
  | next t => rw [← step_params h]; rfl
  | fault | refused => rfl

/-! ### Steps after other earlier answers -/

/-- The same machine, with more answers given before all of its own. -/
def State.withHistory (old : List Reply) (s : State) : State := { s with replies := old ++ s.replies }

@[simp] theorem State.withHistory_replies (old : List Reply) (s : State) :
    (s.withHistory old).replies = old ++ s.replies := rfl

theorem mapNext_eq_next_iff {f : State → State} {o : Host.Outcome State Fault Refusal} {u : State} :
    mapNext f o = .next u ↔ ∃ v, o = .next v ∧ f v = u := by
  cases o <;> simp [mapNext]

section History

variable {old : List Reply}

/-- The next answer comes after all the earlier ones, however many there are. -/
theorem next_answered_withHistory (s : State) (x : Elements) (r : Reply) :
    Host.Outcome.next (answered (s.withHistory old) x r)
      = mapNext (State.withHistory old) (.next (answered s x r)) := by
  simp [mapNext, answered, State.withHistory]

theorem exec_withHistory (i : Instr) (s : State) :
    exec i (s.withHistory old) = mapNext (State.withHistory old) (exec i s) := by
  cases i <;> exact next_answered_withHistory s _ _

theorem hostAccess_withHistory (a : Access) (s : State) :
    hostAccess a (s.withHistory old) = mapNext (State.withHistory old) (hostAccess a s) := by
  cases hd : decode s.params.base a with
  | outside addr => rw [hostAccess_of_outside hd, hostAccess_of_outside (s := s.withHistory old) hd]; rfl
  | busError addr =>
    rw [hostAccess_of_busError hd, hostAccess_of_busError (s := s.withHistory old) hd]
    exact next_answered_withHistory s s.x (.busError addr)
  | instr i => rw [hostAccess_of_instr hd, hostAccess_of_instr (s := s.withHistory old) hd, exec_withHistory]

theorem hostEvent_withHistory (e : HostEvent) (s : State) :
    hostEvent e (s.withHistory old) = mapNext (State.withHistory old) (hostEvent e s) := by
  obtain ⟨_, _, line, _, _⟩ := s
  cases e with
  | assertReset => rfl
  | releaseReset => cases line <;> rfl
  | access a =>
    cases line with
    | true => rfl
    | false => exact hostAccess_withHistory a _

/-- No step looks at the answers the host has been given. -/
theorem step_withHistory (s : State) : step (s.withHistory old) = mapNext (State.withHistory old) (step s) := by
  cases hp : s.pending with
  | nil => rw [step_of_nil hp, step_of_nil (s := s.withHistory old) hp]; rfl
  | cons e rest =>
    rw [step_of_cons hp, step_of_cons (s := s.withHistory old) hp]
    exact hostEvent_withHistory e { s with pending := rest }

theorem run_withHistory (n : Nat) (s : State) :
    run n (s.withHistory old) = mapNext (State.withHistory old) (run n s) := by
  induction n generalizing s with
  | zero => rfl
  | succ n ih =>
    rw [run_succ, run_succ, step_withHistory]
    cases step s with
    | next t => exact ih t
    | fault | refused => rfl

end History

/-! ### Soft and hard reset (70_reset_and_hazards.md R202) -/

/-- A core right after reset, for which the host has the given events. -/
def State.resetFor (p : Params) (events : List HostEvent) : State := { State.resetWith p with pending := events }

@[simp] theorem State.resetFor_replies (p : Params) (events : List HostEvent) :
    (State.resetFor p events).replies = [] := rfl

theorem step_srst_eq_resetFor {s : State} {events : List HostEvent} (hline : s.resetLine = false)
    (hp : s.pending = .access (encode s.params.base .srst) :: events) :
    step s = .next ((State.resetFor s.params events).withHistory (s.replies ++ [.completed])) := by
  rw [step_of_pending_instr rfl hline hp, exec_srst]
  simp [answered, State.resetFor, State.resetWith, State.withHistory, hline]

theorem step_releaseReset_eq_resetFor {s : State} {events : List HostEvent} (hline : s.resetLine = true)
    (hp : s.pending = .releaseReset :: events) :
    step s = .next ((State.resetFor s.params events).withHistory s.replies) := by
  rw [step_of_pending_releaseReset hp hline]
  simp [State.resetFor, State.resetWith, State.withHistory]

/-- Settles O18: both first steps lead to the same core just reset, with different answers behind it, and those no run
looks at. -/
theorem softAndHardResetIndistinguishable : Obligations.SoftAndHardResetIndistinguishable := by
  intro s s' t t' u events n hparams hp hline hp' hline' hstep hstep' hrun
  cases (step_srst_eq_resetFor hline hp).symm.trans hstep
  cases (step_releaseReset_eq_resetFor hline' hp').symm.trans hstep'
  rw [run_withHistory, mapNext_eq_next_iff] at hrun
  obtain ⟨v, hv, rfl⟩ := hrun
  refine ⟨v.withHistory s'.replies, v.replies, ?_, rfl, by simp, by simp⟩
  rw [← hparams, run_withHistory, hv]
  rfl

/-! ### Every access of the window is answered (70_reset_and_hazards.md R216, R217) -/

/-- With reset released, an access of the window completes: it leaves the queue, and the host gets one answer. -/
theorem step_of_window_access {s : State} {a : Access} {rest : List HostEvent} (hp : s.pending = .access a :: rest)
    (hline : s.resetLine = false) (hin : InWindow s.params.base a) :
    ∃ x r, step s = .next (answered { s with pending := rest } x r) := by
  have hw := (inWindow_iff s.params.base a).mpr hin
  cases hl : legalAccess s.params.base a with
  | false => exact ⟨s.x, _, step_of_malformed hp hline hw hl⟩
  | true =>
    obtain ⟨i, hd⟩ := exists_decode_eq_instr_of_legal hw hl
    obtain ⟨x, r, hexec, -⟩ := exec_eq_answered i { s with pending := rest }
    exact ⟨x, r, (step_of_decode_eq_instr hp hline hd).trans hexec⟩

/-- As many steps as there are accesses of the window pending answer them all. -/
theorem run_of_pending_window_accesses {s : State} {events : List HostEvent} (hline : s.resetLine = false)
    (hp : s.pending = events) (hevents : ∀ e ∈ events, IsWindowAccess s.params.base e) :
    ∃ t new, run events.length s = .next t ∧ t.pending = [] ∧ t.replies = s.replies ++ new
      ∧ new.length = events.length := by
  induction events generalizing s with
  | nil => exact ⟨s, [], rfl, hp, (List.append_nil _).symm, rfl⟩
  | cons e rest ih =>
    obtain ⟨⟨a, rfl, hin⟩, hrest⟩ := List.forall_mem_cons.mp hevents
    obtain ⟨x, r, hstep⟩ := step_of_window_access hp hline hin
    obtain ⟨t, new, hrun, hdone, hreplies, hlen⟩ := ih (s := answered { s with pending := rest } x r) hline rfl hrest
    refine ⟨t, r :: new, ?_, hdone, ?_, congrArg (· + 1) hlen⟩
    · rw [List.length_cons, run_succ_of_next rest.length hstep, hrun]
    · rw [hreplies]
      exact List.append_assoc s.replies [r] new

/-- Settles O55: each access of the queue is answered in its turn. -/
theorem everyAccessIsAnswered : Obligations.EveryAccessIsAnswered := by
  intro s hline hevents
  obtain ⟨t, new, hrun, hdone, hreplies, hlen⟩ := run_of_pending_window_accesses hline rfl hevents
  exact ⟨t, hrun, hdone, by rw [hreplies, List.length_append, hlen], ⟨new, hreplies.symm⟩⟩

/-! ### The two halves of TEMP_F64 (70_reset_and_hazards.md R212) -/

theorem run_succ_eq_next_iff {n : Nat} {s t : State} :
    run (n + 1) s = .next t ↔ ∃ u, step s = .next u ∧ run n u = .next t := by
  rw [run_succ]
  cases step s <;> simp

/-- The halves are the upper and the lower 32 bits of the pattern. -/
theorem halves_toNat (d : Double) : 2 ^ 32 * (d.extractLsb' 32 32).toNat + (d.extractLsb' 0 32).toNat = d.toNat := by
  have hd := d.isLt
  rw [lowHalf_eq_ofNat, highHalf_eq_ofNat, BitVec.toNat_ofNat, BitVec.toNat_ofNat]
  omega

/-- An access that completes is one of the window. -/
theorem inWindow_of_step_eq_next {s t : State} {a : Access} {rest : List HostEvent}
    (hp : s.pending = .access a :: rest) (hline : s.resetLine = false) (hstep : step s = .next t) :
    InWindow s.params.base a := by
  by_contra hout
  rw [accessOutsideWindowFaults s a rest hp hline hout] at hstep
  cases hstep

/-- Only a command touches the conversion registers. -/
theorem step_sameConversion_of_no_command {s t : State} {a : Access} {rest : List HostEvent}
    (hp : s.pending = .access a :: rest) (hline : s.resetLine = false) (hcmd : ¬ IsWriteAt s.params.base 0x04 a)
    (hstep : step s = .next t) : SameConversion s.x t.x := by
  by_cases hrx : IsWriteAt s.params.base 0x10 a
  · obtain ⟨v, rfl⟩ := hrx
    cases (step_of_pending_rxPush (v := v) hline hp).symm.trans hstep
    exact push_sameConversion _ _
  · rw [step_keeps_elements_of_other_access hp hstep hcmd hrx]
    exact ⟨rfl, rfl, rfl, rfl⟩

/-- An access that completes and is no command: one more answer, and TEMP_F64 as it was. -/
theorem step_of_no_command {s t : State} {a : Access} {rest : List HostEvent} (hp : s.pending = .access a :: rest)
    (hline : s.resetLine = false) (hcmd : ¬ IsWriteAt s.params.base 0x04 a) (hstep : step s = .next t) :
    ∃ x r, t = answered { s with pending := rest } x r ∧ x.tf64 = s.x.tf64 := by
  obtain ⟨x, r, hanswered⟩ := step_of_window_access hp hline (inWindow_of_step_eq_next hp hline hstep)
  obtain ⟨-, -, htf64, -⟩ := step_sameConversion_of_no_command hp hline hcmd hstep
  cases hanswered.symm.trans hstep
  exact ⟨x, r, rfl, htf64⟩

/-- Accesses without a command and then a read of TEMP_F64_HI: TEMP_F64 is kept, and the last answer is its
upper half. -/
theorem run_of_no_commands_then_tempF64Hi {s t : State} {mid : List HostEvent}
    (hrun : run (mid.length + 1) s = .next t) (hline : s.resetLine = false)
    (hmid : ∀ e ∈ mid, ∃ a, e = .access a ∧ ¬ IsWriteAt s.params.base 0x04 a)
    (hp : s.pending = mid ++ [.access (encode s.params.base (.rd .tempF64Hi))]) :
    t.x.tf64 = s.x.tf64 ∧ ∃ new, t.replies = s.replies ++ new ++ [.data (s.x.tf64.extractLsb' 32 32)] := by
  induction mid generalizing s with
  | nil =>
    rw [List.length_nil, run_one, step_of_pending_instr (i := .rd .tempF64Hi) rfl hline hp, exec_rd] at hrun
    cases hrun
    exact ⟨rfl, [], by rw [List.append_nil]; rfl⟩
  | cons e mid ih =>
    obtain ⟨⟨a, rfl, hcmd⟩, hmid'⟩ := List.forall_mem_cons.mp hmid
    obtain ⟨u, hstep, hrest⟩ := run_succ_eq_next_iff.mp hrun
    obtain ⟨x, r, rfl, hx⟩ := step_of_no_command hp hline hcmd hstep
    obtain ⟨htf64, new, hreplies⟩ := ih hrest hline hmid' rfl
    refine ⟨htf64.trans hx, r :: new, ?_⟩
    rw [hreplies]
    simp [answered, hx]

/-- Settles O45: the first step answers the lower half and changes no element, and the rest of the run keeps TEMP_F64
until its upper half is read. -/
theorem tempF64HalvesBelongTogether : Obligations.TempF64HalvesBelongTogether := by
  intro s t mid hline hmid hp hrun
  obtain ⟨u, hstep, hrest⟩ := run_succ_eq_next_iff.mp hrun
  rw [step_of_pending_instr (i := .rd .tempF64Lo) rfl hline hp, exec_rd] at hstep
  cases hstep
  obtain ⟨htf64, new, hreplies⟩ := run_of_no_commands_then_tempF64Hi hrest hline hmid rfl
  refine ⟨s.x.tf64.extractLsb' 0 32, s.x.tf64.extractLsb' 32 32, ?_, ?_, halves_toNat s.x.tf64, htf64⟩
  · rw [hreplies]
    simp [State.answer, readValue]
  · rw [hreplies, List.getLast?_concat]
    rfl

end Sys2Proof.Machine
end
